-- ==== Sys2Proof/Word.lean ====
section
/-! DEFINITION. The number types of the BX-448 and the fixed-size tables its blocks keep. -/

namespace Sys2Proof

/-- One byte of common memory (R150). -/
abbrev Byte := BitVec 8

/-- A 16-bit register, slot word or address of common memory (section 9.1, section 11.2). -/
abbrev Word := BitVec 16

/-- A value of the 32-bit millisecond time counter (R1). -/
abbrev Time := BitVec 32

/-- A journal sequence number (R164). -/
abbrev Seq := BitVec 32

/-- Channels A to D, index 0 to 3 (chapter 0, Channels and positions). -/
abbrev Channel := Fin 4

/-- Amplifier positions A1 to D6, index 0 to 23 (chapter 0, Channels and positions). -/
abbrev PositionIx := Fin 24

/-- The 96 analog points (chapter 0, Analog point map). -/
abbrev Point := Fin 96

/-- Indexes of the live condition table (section 2.1). -/
abbrev EntryIx := Fin 96

/-- Arc lines ARC1 to ARC8; `0` stands for ARC1 (section 1.2). -/
abbrev ArcLine := Fin 8

/-- The four capture buffers (section 8.1). -/
abbrev BufferIx := Fin 4

/-- The sixteen request slots (section 9.2). -/
abbrev SlotIx := Fin 16

/-- The six captured points in capture order AF, AR, CR-A, CR-B, CR-C, CR-D (chapter 8). -/
abbrev CapturedIx := Fin 6

/-- All four channels, in channel order. -/
def allChannels : List Channel := [0, 1, 2, 3]

/-- Entry `i` of a table of fixed size. -/
def look {α : Type} {n : Nat} (v : Vector α n) (i : Fin n) : α := v[i.val]

/-- The table with entry `i` replaced. -/
def put {α : Type} {n : Nat} (v : Vector α n) (i : Fin n) (x : α) : Vector α n := v.set i.val x

end Sys2Proof
end

