-- ==== Sys2Proof/Config.lean ====
section
/-! DEFINITION. What the card fixes: its sizes, its own times, the map of common memory, and the free values
of its output lines while it has no supply. -/

namespace Sys2Proof.Config

/-- R12: the loop stays closed this long before the interlock state goes to closed. -/
def closureMs : Nat := 200

/-- R16, R18: the frame-mark timeout used while a channel has no profile. -/
def markTimeoutMs : Nat := 250

/-- R126: a newly seated module stays present this long before its identity is read. -/
def presenceMs : Nat := 100

/-- R126: an identity read ends this long after its own start. -/
def identityReadMs : Nat := 40

/-- R168: each rewrite of the status block begins this long after the one before. -/
def rewriteMs : Nat := 10

/-- R6, R11, R16: an arc line, an opening of a closed interlock and a frame mark qualify after 1 µs. -/
def qualifyNs : Nat := 1000

/-- R126: a presence line qualifies after 1 ms. -/
def presenceQualifyNs : Nat := 1000000

/-- Section 9.4: the fixed contents of IDENT. -/
def ident : Word := 0x4C8B#16

/-- R157, R74: the level of a line whose supply is lost is not stated, so it is free.
The argument numbers the line. -/
opaque unpoweredLine : Nat → Bool

/-- R49: the drive-level output of a channel without supply is not stated, so it is free. -/
opaque unpoweredDrive : Nat → Nat

/-- A register read without supply is not stated, so it is free. -/
opaque unpoweredRegister : Nat → Word

/-! The map of common memory (R150, section 9.1) and the layouts of R171. -/

def identityBase : Nat := 0x0000
def settingsBase : Nat := 0x0040
def journalHeaderBase : Nat := 0x0080
def releaseBase : Nat := 0x00A0
def confirmationBase : Nat := 0x00C0
def slotBase : Nat := 0x0100
def profileBase : Nat := 0x0500
def journalBase : Nat := 0x0600
def captureHeaderBase : Nat := 0x0E00
def conditionBase : Nat := 0x1000
def statusBase : Nat := 0x2000
def statusSize : Nat := 0x1000
def captureDataBase : Nat := 0x3000
def memorySize : Nat := 0x10000

/-- R151: the sixteen-bit fields of the identity and capability record, in layout order. -/
def identityFields : List Nat := [1, 4, 6, 96, 8, 96, 16, 64, 4, 128, 6]

end Sys2Proof.Config
end

