-- ==== Sys2Proof/Syntax.lean ====
section
/-! DEFINITION. The commands of the card: one constructor per row of the table of operations and events,
with the types of their operands. -/

namespace Sys2Proof

/-- The levels of the physical lines as the card leaves reset (R10, R13, R125). -/
structure Pins where
  /-- which arc lines are active -/
  arcs : Vector Bool 8
  /-- whether the interlock loop is closed -/
  loopClosed : Bool
  /-- which module presence lines are active -/
  presence : Vector Bool 24
  deriving DecidableEq, Repr

/-- What causes a controller reset (R159). -/
inductive ResetCause where
  /-- a write of `value` to RESET_CTL, taken as a reset when bit 0 is set -/
  | resetCtlWrite (value : Word)
  /-- the backplane reset line becomes held -/
  | backplaneLine
  deriving DecidableEq, Repr

/-- The registers whose writes are ignored (R157, R159). -/
inductive QuietRegister where
  | status
  | ident
  | resetCtl
  deriving DecidableEq, Repr

/-- A write of the journal release word: whole, or only its low or high half (R171). -/
inductive ReleaseWrite where
  | whole (value : BitVec 32)
  | low (value : Word)
  | high (value : Word)
  deriving DecidableEq, Repr

/-- The card-written areas that initialization writes (R161). -/
inductive InitArea where
  | slots
  | release
  | journal
  | confirmations
  | captures
  | identity
  deriving DecidableEq, Repr

/-- What goes on in common memory before a slot state write, in order (R150): the site controller's plain
writes of bytes, and the card's own piecewise reading and writing with which they interleave. -/
inductive Traffic where
  /-- the site controller writes one byte; no event at the card -/
  | write (address : Word) (data : Byte)
  /-- the card, initializing, writes one of the areas of R161 -/
  | initArea (area : InitArea)
  /-- the card, loading, has read the first `upTo` condition drafts, and with 97 the site settings draft (R40) -/
  | readDrafts (upTo : Nat)
  deriving DecidableEq, Repr

/-- Which neighbour's strike a Channel Controller takes (section 3.4). -/
inductive StrikeLink where
  /-- the Input Scanner: an arc line -/
  | scanner
  /-- the Condition Evaluator: a STRIKE entry -/
  | evaluator
  /-- the channel's own Foldback Controller -/
  | foldback
  deriving DecidableEq, Repr

/-- The blocks that send journal records (R166). A channel's Channel Controller and its Strike Accounting
count as one block (R165). -/
inductive Sender where
  | scanner
  | monitor (c : Channel)
  | evaluator
  | channel (c : Channel)
  | positions
  deriving DecidableEq, Repr

/-- The commands of the card, one constructor per row of the table, in the table's order. -/
inductive Instr where
  /-- POWER_ON_RESET (R159, R160): supply comes up; `lineHeld` says whether the backplane reset line is held
  then, and `pins` are the line levels as the card leaves reset. -/
  | powerOnReset (lineHeld : Bool) (pins : Pins)
  /-- CONTROLLER_RESET (R159): by a RESET_CTL write, or by the backplane line. `pins` are the line levels as
  the card leaves a reset by RESET_CTL. -/
  | controllerReset (cause : ResetCause) (pins : Pins)
  /-- INITIALIZATION_END (R162). -/
  | initializationEnd
  /-- ATTN (R154): a write of any value. -/
  | attn (value : Word)
  /-- IRQ_ENABLE_WRITE (R157). -/
  | irqEnableWrite (value : Word)
  /-- REGISTER_WRITE_IGNORED (R157, R159). -/
  | registerWriteIgnored (reg : QuietRegister) (value : Word)
  /-- JOURNAL_RELEASE_WRITE (R167, R171). -/
  | journalReleaseWrite (w : ReleaseWrite)
  /-- SLOT_STATE_WRITE (R158): the site controller writes `value` into the state word of `slot`, after the
  memory traffic `before`. -/
  | slotStateWrite (before : List Traffic) (slot : SlotIx) (value : Word)
  /-- SLOT_VISIT (R155). -/
  | slotVisit
  /-- SWEEP_END (R156). -/
  | sweepEnd
  /-- BAD_KIND (R153): the visit that takes a slot whose kind field names no request. -/
  | badKind
  /-- LOAD_CONDITIONS (R40): the visit that takes a LOAD_CONDITIONS. -/
  | loadConditions
  /-- LOAD_END (R43, R44): `lineOrder` is the order, which the manual leaves open, in which the Input Scanner
  compares the arc lines. -/
  | loadEnd (lineOrder : List ArcLine)
  /-- CLEAR_CONDITION (R36): the visit that takes one; its arguments are the slot's words. -/
  | clearCondition
  /-- LOAD_PROFILE (R50). -/
  | loadProfile
  /-- CHANNEL_ON (R53). -/
  | channelOn
  /-- CHANNEL_OFF (R71). -/
  | channelOff
  /-- SET_TARGET (R114). -/
  | setTarget
  /-- CONFIRM_RESTRIKE (R83). -/
  | confirmRestrike
  /-- RELEASE_LOCKOUT (R90). -/
  | releaseLockout
  /-- ENABLE_POSITION (R131). -/
  | enablePosition
  /-- DISABLE_POSITION (R132). -/
  | disablePosition
  /-- HOLD_CAPTURE (R147). -/
  | holdCapture
  /-- RELEASE_CAPTURE (R148). -/
  | releaseCapture
  /-- SAMPLE_ARRIVAL (R2, R3): a conversion of `point` to `input`, saturated at 0 and 4095; `order` is the
  order, which the manual leaves open, in which the entries watching the point are evaluated (R20). -/
  | sampleArrival (point : Point) (input : Int) (order : List EntryIx)
  /-- ARC_LINE_ASSERTION (R6, R7): the line has been driven active for `spell` nanoseconds without a break. -/
  | arcLineAssertion (line : ArcLine) (spell : Nat)
  /-- ARC_LINE_DEASSERTION (R6, R8): the line has been inactive for `spell` nanoseconds without a break. -/
  | arcLineDeassertion (line : ArcLine) (spell : Nat)
  /-- INTERLOCK_LOOP_OPENING (R11, R12): the loop has been open for `spell` nanoseconds without a break. -/
  | interlockLoopOpening (spell : Nat)
  /-- INTERLOCK_LOOP_CLOSING (R12). -/
  | interlockLoopClosing
  /-- CLOSURE_TIMER_EXPIRY (R12). -/
  | closureTimerExpiry
  /-- REAL_MARK (R16): the frame-mark input has been active for `spell` nanoseconds. -/
  | realMark (c : Channel) (spell : Nat)
  /-- MARK_INTERVAL_EXPIRY (R17). -/
  | markIntervalExpiry (c : Channel)
  /-- FRAME_MARK (R121): the Drive Resolver takes a delivered mark. -/
  | frameMark (c : Channel)
  /-- STEP_REPORT (R104): the Arbiter takes a step report of the channel. -/
  | stepReport (c : Channel)
  /-- GRANT_TAKEN (R55, R98). -/
  | grantTaken (c : Channel)
  /-- RAMP_COMPLETION (R56). -/
  | rampCompletion (c : Channel)
  /-- PREEMPTION (R57, R105). -/
  | preemption (c : Channel)
  /-- STRIKE (R58): the Channel Controller takes the strike next in order on the link. -/
  | strike (c : Channel) (link : StrikeLink)
  /-- LOCKOUT_ACTION (R68). -/
  | lockoutAction (c : Channel)
  /-- CONDITION_CLEARED_EVENT (R66). -/
  | conditionClearedEvent (c : Channel)
  /-- ARC_CLEARED (R66). -/
  | arcCleared (c : Channel)
  /-- HOLDOFF_EXPIRY (R65). -/
  | holdoffExpiry (c : Channel)
  /-- CONFIRMATION_EXPIRY (R86). -/
  | confirmationExpiry (c : Channel)
  /-- INTERLOCK_OPENED_EVENT (R69). -/
  | interlockOpenedEvent (c : Channel)
  /-- INTERLOCK_CLOSED_EVENT (R70). -/
  | interlockClosedEvent (c : Channel)
  /-- TIME_COUNTER_WRAP (R1, R77): the millisecond that takes the counter from 4,294,967,295 to 0. -/
  | timeCounterWrap
  /-- FOLDBACK_JOIN (R116). -/
  | foldbackJoin (c : Channel)
  /-- FOLDBACK_LEAVE (R116). -/
  | foldbackLeave (c : Channel)
  /-- POSITION_COUNT (R115). -/
  | positionCount (c : Channel)
  /-- PRESENCE_CHANGE (R126): the presence line has held its new level for `spell` nanoseconds. -/
  | presenceChange (p : PositionIx) (active : Bool) (spell : Nat)
  /-- PRESENCE_TIMER_END (R126). -/
  | presenceTimerEnd (p : PositionIx)
  /-- IDENTITY_READ_END (R127): the module gave `code`, or none. -/
  | identityReadEnd (p : PositionIx) (code : Option Byte)
  /-- POSITION_TRIP (R133): the Position Monitor takes the trip of entry `e` for position `p`. -/
  | positionTrip (p : PositionIx) (e : EntryIx)
  /-- CAPTURE_TRIGGER (R140): the Capture Unit takes the next trigger of the channel. -/
  | captureTrigger (c : Channel)
  /-- JOURNAL_RECORD (R164): the Journal Writer takes the sender's next record. -/
  | journalRecord (sender : Sender)
  /-- STATUS_REWRITE (R168, R169): the Status Writer starts a rewrite, or goes on with one, and copies the
  fields numbered in `fields`, each once. -/
  | statusRewrite (fields : List Nat)
  /-- STATUS_REWRITE_END (R168): what is not yet copied is copied, and the rewrite ends. -/
  | statusRewriteEnd
  /-- TIME_COUNTER_TICK (R1). -/
  | timeCounterTick
  /-- BACKPLANE_RESET_RELEASE (R159): the held line is released and the card leaves reset with the line
  levels `pins`. -/
  | backplaneResetRelease (pins : Pins)
  /-- SUPPLY_LOSS (R74). -/
  | supplyLoss
  deriving DecidableEq, Repr

end Sys2Proof
end

