-- ==== Sys2Proof/WellFormed.lean ====
section
/-! DEFINITION. Which terms of the command type name an event of the card. Operand ranges that a type
already gives (a channel, a position, a point) need no check here. -/

namespace Sys2Proof

/-- How many status fields a rewrite copies (R169 and the layout of the status block, with its unassigned
bytes): 4 fields and one gap before the channels, 13 fields and one gap for each channel, 3 fields and one gap
for each position, 96 entry states, 96 latest values, and the rest of the area. -/
def statusFieldCount : Nat := 5 + 4 * 14 + 24 * 4 + 96 + 96 + 1

/-- A traffic item names a draft position that exists: 96 entries and the site settings (R40). -/
def Traffic.wellFormed : Traffic → Bool
  | .write _ _ => true
  | .initArea _ => true
  | .readDrafts upTo => decide (upTo ≤ 97)

/-- The commands that name an event: a reset by RESET_CTL has bit 0 set and an ignored write of RESET_CTL has
it clear (R159), orders and field lists name nothing twice, and draft and status field numbers exist. -/
def Instr.wellFormed : Instr → Bool
  | .controllerReset (.resetCtlWrite value) _ => value.getLsbD 0
  | .registerWriteIgnored .resetCtl value => !value.getLsbD 0
  | .slotStateWrite before _ _ => before.all Traffic.wellFormed
  | .loadEnd lineOrder => decide lineOrder.Nodup
  | .sampleArrival _ _ order => decide order.Nodup
  | .statusRewrite fields => decide fields.Nodup && fields.all (fun k => decide (k < statusFieldCount))
  | .powerOnReset _ _ | .controllerReset .backplaneLine _ | .initializationEnd | .attn _ | .irqEnableWrite _
  | .registerWriteIgnored .status _ | .registerWriteIgnored .ident _ | .journalReleaseWrite _ | .slotVisit
  | .sweepEnd | .badKind | .loadConditions | .clearCondition | .loadProfile | .channelOn | .channelOff
  | .setTarget | .confirmRestrike | .releaseLockout | .enablePosition | .disablePosition | .holdCapture
  | .releaseCapture | .arcLineAssertion _ _ | .arcLineDeassertion _ _ | .interlockLoopOpening _
  | .interlockLoopClosing | .closureTimerExpiry | .realMark _ _ | .markIntervalExpiry _ | .frameMark _
  | .stepReport _ | .grantTaken _ | .rampCompletion _ | .preemption _ | .strike _ _ | .lockoutAction _
  | .conditionClearedEvent _ | .arcCleared _ | .holdoffExpiry _ | .confirmationExpiry _
  | .interlockOpenedEvent _ | .interlockClosedEvent _ | .timeCounterWrap | .foldbackJoin _ | .foldbackLeave _
  | .positionCount _ | .presenceChange _ _ _ | .presenceTimerEnd _ | .identityReadEnd _ _ | .positionTrip _ _
  | .captureTrigger _ | .journalRecord _ | .statusRewriteEnd | .timeCounterTick | .backplaneResetRelease _
  | .supplyLoss => true

end Sys2Proof
end

