-- ==== Sys2Proof/Machine/State.lean ====
section
/-! DEFINITION. The state of the card: what each block owns, what is in flight between blocks, common memory,
and the queue of commands. Plain data throughout. -/

namespace Sys2Proof.Machine

/-! ## Named values (R170) -/

/-- Whether the card has supply, is in reset, initializes, or is READY (R157, R159 to R162). -/
inductive Phase where
  /-- without supply -/
  | unpowered
  /-- held in reset by the backplane line; `powerOn` when a power-on reset waits to zero the memory (R160) -/
  | held (powerOn : Bool)
  /-- out of reset, initializing (R161) -/
  | initializing
  /-- READY (R162) -/
  | ready
  deriving DecidableEq, Repr

/-- The nine channel states (section 3.1). -/
inductive ChannelState where
  | off | queued | ramping | paused | on | holdoff | confirmWait | lockout | interlocked
  deriving DecidableEq, Repr

/-- The six position states (section 7.1). -/
inductive PositionState where
  | empty | identifying | refused | disabled | active | tripped
  deriving DecidableEq, Repr

/-- The five entry states (section 2.1). -/
inductive EntryState where
  | disabled | normal | arming | active | clearing
  deriving DecidableEq, Repr

/-- The four capture buffer states (section 8.1). -/
inductive BufferState where
  | free | filling | ready | held
  deriving DecidableEq, Repr

/-- The five compares of a condition entry (section 2.1). -/
inductive Compare where
  | above | below | outside | ratioAbove | stepAbove
  deriving DecidableEq, Repr

/-- The five actions of a condition entry (section 2.4). -/
inductive Action where
  | note | foldback | strike | lockout | positionTrip
  deriving DecidableEq, Repr

/-- The side an arrival falls on (section 2.2). -/
inductive Side where
  | set | clear | neither
  deriving DecidableEq, Repr

/-- The fifteen journal record kinds (R166). -/
inductive RecordKind where
  | strike | mutedStrike | lockout | confirmPosted | confirmAnswered | confirmExpired | restored
  | conditionSet | conditionCleared | positionChanged | interlockOpened | interlockClosed
  | frameMarkLost | frameMarkBack | channelChanged
  deriving DecidableEq, Repr

/-- The thirteen result codes (section 9.2). -/
inductive ResultCode where
  | ok | badKind | badArgument | notConfigured | noProfile | wrongState | channelActive | interlocked
  | stillActive | late | gone | tableError | notInstalled
  deriving DecidableEq, Repr

/-- The twelve request kinds (R153). -/
inductive RequestKind where
  | loadConditions | loadProfile | channelOn | channelOff | setTarget | confirmRestrike | releaseLockout
  | clearCondition | enablePosition | disablePosition | holdCapture | releaseCapture
  deriving DecidableEq, Repr

/-- The limit sources and the absence of one (R111). -/
inductive Source where
  | none | ramp | foldback | positions | target
  deriving DecidableEq, Repr

/-- The ramp engine (section 5.1). -/
inductive Engine where
  | free
  | granted (c : Channel)
  | held (c : Channel)
  deriving DecidableEq, Repr

/-! ## Tables that the site controller loads -/

/-- The thirteen fields of a condition entry as read from its draft (section 2.1, R171). Codes stay as they
stand, because a disabled entry keeps whatever its draft held and R44 compares all thirteen. -/
structure ConditionFields where
  enable : Nat
  compare : Nat
  pointA : Nat
  pointB : Nat
  level1 : Nat
  level2 : Nat
  /-- field 7, hysteresis or floor -/
  band : Nat
  setCount : Nat
  clearCount : Nat
  action : Nat
  scope : Nat
  latch : Nat
  capture : Nat
  deriving DecidableEq, Repr

/-- The site settings as read from their draft (section 2.6). -/
structure SiteSettings where
  arcEnable : Byte
  arcScope : Vector Byte 8
  preemptHold : Nat
  captureEnable : Nat
  capturePolicy : Nat
  deriving DecidableEq, Repr

/-- The twenty-two fields of a channel profile (R51). -/
structure Profile where
  installed : Nat
  identity : Nat
  ceiling : Vector Nat 7
  group : Nat
  rampStep : Nat
  rampSpacing : Nat
  holdoffTime : Nat
  strikeWindow : Nat
  confirmThreshold : Nat
  lockoutThreshold : Nat
  confirmTimeout : Nat
  foldbackStep : Nat
  recoveryStep : Nat
  foldbackFloor : Nat
  escalation : Nat
  markTimeout : Nat
  deriving DecidableEq, Repr

/-! ## Records and deliveries in flight -/

/-- The new state field of a journal record (section 10.1). -/
inductive NewState where
  | none
  | channel (st : ChannelState)
  | position (st : PositionState)
  deriving DecidableEq, Repr

/-- A journal record as its block sends it, before it is numbered (section 10.1). -/
structure Record where
  time : Time
  kind : RecordKind
  channel : Option Channel := none
  position : Option PositionIx := none
  condition : Option EntryIx := none
  line : Option ArcLine := none
  value : Option Nat := none
  newState : NewState := .none
  strikeCount : Nat := 0
  buffer : Option BufferIx := none
  joined : Bool := false
  replaced : Bool := false
  withdrawn : Bool := false
  extended : Bool := false
  deriving DecidableEq, Repr

/-- R165: the records of `sender` sent before a delivery, that is those with a serial below `serial`. -/
structure Stamp where
  sender : Sender
  serial : Nat
  deriving DecidableEq, Repr

/-- A record sent and not yet numbered. -/
structure WaitingRecord where
  /-- its place in the order of sending; the model's own -/
  serial : Nat
  sender : Sender
  /-- the records that R165 has numbered before it -/
  after : Option Stamp
  record : Record
  /-- R60: its capture trigger is not yet taken -/
  awaitsCapture : Bool
  deriving DecidableEq, Repr

/-- What the Input Scanner delivers to a Channel Controller (R7, R8, R11, R12). -/
inductive ScannerEvent where
  | strike (line : ArcLine)
  | arcCleared (line : ArcLine)
  | opened
  | closed
  deriving DecidableEq, Repr

/-- A delivery of the Input Scanner, with the count of records sent before it (R165). -/
structure ScannerDelivery where
  event : ScannerEvent
  sent : Nat
  deriving DecidableEq, Repr

/-- What the Condition Evaluator delivers to a Channel Controller (R33, R34). -/
inductive EvaluatorEvent where
  | strike (e : EntryIx) (capture : Bool)
  | lockout (e : EntryIx) (capture : Bool)
  | conditionCleared (e : EntryIx)
  deriving DecidableEq, Repr

/-- A delivery of the Condition Evaluator, with the count of records sent before it (R165). -/
structure EvaluatorDelivery where
  event : EvaluatorEvent
  sent : Nat
  deriving DecidableEq, Repr

/-- What the Condition Evaluator delivers to a Drive Resolver (R32). -/
inductive FoldbackDelivery where
  | join (e : EntryIx)
  | leave (e : EntryIx)
  deriving DecidableEq, Repr

/-- A trip delivered to the Position Monitor (R35). -/
structure TripDelivery where
  position : PositionIx
  entry : EntryIx
  sent : Nat
  deriving DecidableEq, Repr

/-- The deliveries in flight to and from one channel's blocks. Lists are in the order sent, which the receiver
keeps (R8, R33, R115, R116); numbers count deliveries that are alike. -/
structure ChannelLinks where
  fromScanner : List ScannerDelivery
  fromEvaluator : List EvaluatorDelivery
  /-- FOLDBACK_EXHAUSTED strikes to the Channel Controller (R118) -/
  exhausted : Nat
  /-- ramp completions told to the Channel Controller (R102, R103) -/
  completions : Nat
  /-- preemptions delivered to the Channel Controller (R104) -/
  preemptions : Nat
  /-- frame marks delivered to the Drive Resolver (R16, R17) -/
  marks : Nat
  /-- step reports to the Arbiter (R104) -/
  reports : Nat
  foldback : List FoldbackDelivery
  /-- active counts to the Drive Resolver (R115) -/
  counts : List Nat
  deriving DecidableEq, Repr

/-! ## What each block owns -/

/-- A history ring (R14). -/
structure Ring where
  slots : Vector Nat 64
  index : Fin 64
  deriving DecidableEq, Repr

/-- The Input Scanner (chapter 1). -/
structure Scanner where
  latest : Vector Nat 96
  previous : Vector Nat 96
  arrived : Vector Bool 96
  rings : Vector Ring 6
  arcAsserted : Vector Bool 8
  interlockClosed : Bool
  /-- the closure timer's end while it runs (R12) -/
  closureTimer : Option Time
  deriving DecidableEq, Repr

/-- A Frame Mark Monitor (section 1.5). -/
structure MarkMonitor where
  /-- mark state: PRESENT or MISSING -/
  present : Bool
  lastMark : Time
  interval : Nat
  realMarks : BitVec 32
  deriving DecidableEq, Repr

/-- A live entry: its fields and its three items of state (section 2.1). -/
structure LiveEntry where
  fields : ConditionFields
  state : EntryState
  count : Nat
  clearSeen : Bool
  deriving DecidableEq, Repr

/-- A LOAD_CONDITIONS in progress: its slot and what it has read so far, in index order (R40). -/
structure Load where
  slot : SlotIx
  drafts : List ConditionFields
  settings : Option SiteSettings
  deriving DecidableEq, Repr

/-- The Condition Evaluator (chapter 2). -/
structure Evaluator where
  entries : Vector LiveEntry 96
  settings : SiteSettings
  /-- site state READY -/
  configured : Bool
  load : Option Load
  deriving DecidableEq, Repr

/-- A Channel Controller (section 3.1). -/
structure ChannelController where
  state : ChannelState
  profile : Option Profile
  /-- the holdoff timer's expiry time while it runs -/
  holdoff : Option Time
  extended : Bool
  /-- the MUTE output is asserted -/
  mute : Bool
  deriving DecidableEq, Repr

/-- A channel's Strike Accounting: strike list and confirmation record (sections 4.1 and 4.2). -/
structure StrikeAccounting where
  times : List Time
  /-- the confirmation record is PENDING -/
  pending : Bool
  number : Word
  count : Nat
  posted : Time
  deadline : Time
  nextNumber : Word
  /-- the confirmation timer's end while it runs -/
  timer : Option Time
  deriving DecidableEq, Repr

/-- A Drive Resolver with its Foldback Controller (sections 6.1, 6.2 and 6.5). -/
structure DriveResolver where
  target : Option Nat
  positions : Option Nat
  foldback : Option Nat
  ramp : Option Nat
  drive : Nat
  activeSet : List EntryIx
  floorMarks : Nat
  deriving DecidableEq, Repr

/-- The Re-strike Arbiter and Ramp Engine (section 5.1). -/
structure Arbiter where
  high : List Channel
  low : List Channel
  engine : Engine
  steps : Nat
  lastStep : Time
  preemptionSent : Bool
  deriving DecidableEq, Repr

/-- A record of the position table (section 7.1). -/
structure PositionRecord where
  state : PositionState
  identity : Byte
  bias : Bool
  /-- the presence line is qualified active -/
  presence : Bool
  presenceTimer : Option Time
  /-- the end of the identity read in flight -/
  read : Option Time
  deriving DecidableEq, Repr

/-- A capture buffer's header (section 8.1). -/
structure CaptureBuffer where
  state : BufferState
  sequence : Seq
  time : Time
  mask : BitVec 4
  deriving DecidableEq, Repr

/-- The Capture Unit (chapter 8). -/
structure CaptureUnit where
  buffers : Vector CaptureBuffer 4
  postCounts : Vector Nat 6
  deriving DecidableEq, Repr

/-- A sweep: the slot to be visited (16 when slot 15 has been) and the requests completed (section 9.3). -/
structure Sweep where
  slot : Nat
  completed : Nat
  deriving DecidableEq, Repr

/-- The Request Handler (section 9.3); `sweep` is none when it is idle. -/
structure RequestHandler where
  sweep : Option Sweep
  again : Bool
  ack : Bool
  deriving DecidableEq, Repr

/-- The Journal Writer, and the records on their way to it (section 10.1). -/
structure JournalWriter where
  newest : Seq
  next : Fin 64
  waiting : List WaitingRecord
  /-- how many records have been sent since reset; the model's own -/
  sent : Nat
  deriving DecidableEq, Repr

/-- The Status Writer (section 10.3). -/
structure StatusWriter where
  count : BitVec 32
  /-- when the next rewrite begins -/
  due : Time
  /-- the fields copied so far while a rewrite is in progress -/
  copied : Option (List Nat)
  deriving DecidableEq, Repr

/-- Common memory: the bytes that are not zero, by rising address (R150, R160). -/
abbrev Memory := List Host.Cell

/-- The whole card and its queue of commands. -/
structure State where
  phase : Phase
  now : Time
  mem : Memory
  /-- the areas of R161 that this initialization has written -/
  initialized : List InitArea
  scanner : Scanner
  monitors : Vector MarkMonitor 4
  evaluator : Evaluator
  chans : Vector ChannelController 4
  strikes : Vector StrikeAccounting 4
  resolvers : Vector DriveResolver 4
  arbiter : Arbiter
  positions : Vector PositionRecord 24
  captures : CaptureUnit
  handler : RequestHandler
  journal : JournalWriter
  status : StatusWriter
  /-- IRQ_ENABLE: bit 0 REQ_DONE, 1 JOURNAL, 2 CONFIRM, 3 CAPTURE (section 11.2) -/
  irqEnable : BitVec 4
  links : Vector ChannelLinks 4
  trips : List TripDelivery
  /-- the commands waiting, first in, first out -/
  pending : List Instr
  deriving DecidableEq, Repr

/-- Why the card stops: the manual gives it no fault that stops it, so no meaning raises one. -/
inductive Fault where
  deriving DecidableEq, Repr

/-- Why a command has no meaning. -/
inductive Refusal where
  /-- Raised by an arm of exec for a command not yet modelled; safe. No arm raises it now. -/
  | notModelled (mnemonic : String)
  deriving DecidableEq, Repr

/-! ## Reset values -/

/-- R19: every field zero. -/
def ConditionFields.blank : ConditionFields := ⟨0, 0, 0, 0, 0, 0, 0, 0, 0, 0, 0, 0, 0⟩

/-- R19: DISABLED, count 0, clear seen unset. -/
def LiveEntry.blank : LiveEntry := ⟨ConditionFields.blank, .disabled, 0, false⟩

/-- R38: all zero. -/
def SiteSettings.blank : SiteSettings := ⟨0, Vector.replicate 8 0, 0, 0, 0⟩

/-- Stands for the parameters of a channel without a profile; no rule reads them then. -/
def Profile.blank : Profile := ⟨0, 0, Vector.replicate 7 0, 0, 0, 0, 0, 0, 0, 0, 0, 0, 0, 0, 0, 0⟩

/-- R14. -/
def Ring.reset : Ring := ⟨Vector.replicate 64 0, 0⟩

/-- R5, R10, R13, R14, with every line inactive and the loop open (DESIGN CHOICE, log 9). -/
def Scanner.reset : Scanner where
  latest := Vector.replicate 96 0
  previous := Vector.replicate 96 0
  arrived := Vector.replicate 96 false
  rings := Vector.replicate 6 Ring.reset
  arcAsserted := Vector.replicate 8 false
  interlockClosed := false
  closureTimer := none

/-- R18. The time of the last mark before any mark is 0, where the first interval starts (DESIGN CHOICE, log 34). -/
def MarkMonitor.reset : MarkMonitor := ⟨false, 0, Config.markTimeoutMs, 0⟩

/-- R19, R38, R39. -/
def Evaluator.reset : Evaluator := ⟨Vector.replicate 96 LiveEntry.blank, SiteSettings.blank, false, none⟩

/-- R48. -/
def ChannelController.reset : ChannelController := ⟨.off, none, none, false, true⟩

/-- R75, R80. -/
def StrikeAccounting.reset : StrikeAccounting := ⟨[], false, 0, 0, 0, 0, 1, none⟩

/-- R109. -/
def DriveResolver.reset : DriveResolver := ⟨none, none, none, none, 0, [], 0⟩

/-- R93. -/
def Arbiter.reset : Arbiter := ⟨[], [], .free, 0, 0, false⟩

/-- R125, for a presence line that is inactive. -/
def PositionRecord.reset : PositionRecord := ⟨.empty, 0xFF, false, false, none, none⟩

/-- R139. -/
def CaptureBuffer.reset : CaptureBuffer := ⟨.free, 0, 0, 0⟩

/-- R139. -/
def CaptureUnit.reset : CaptureUnit := ⟨Vector.replicate 4 CaptureBuffer.reset, Vector.replicate 6 0⟩

/-- R154. -/
def RequestHandler.reset : RequestHandler := ⟨none, false, false⟩

/-- R164. -/
def JournalWriter.reset : JournalWriter := ⟨0, 0, [], 0⟩

/-- R168. -/
def StatusWriter.reset : StatusWriter := ⟨0, 0, none⟩

/-- Nothing in flight. -/
def ChannelLinks.reset : ChannelLinks := ⟨[], [], 0, 0, 0, 0, 0, [], []⟩

/-- R160: the card as it leaves a power-on reset, at the start of initialization, with common memory zeroed,
every line inactive and the loop open (DESIGN CHOICE, log 9), and no command waiting. -/
def State.reset : State where
  phase := .initializing
  now := 0
  mem := []
  initialized := []
  scanner := Scanner.reset
  monitors := Vector.replicate 4 MarkMonitor.reset
  evaluator := Evaluator.reset
  chans := Vector.replicate 4 ChannelController.reset
  strikes := Vector.replicate 4 StrikeAccounting.reset
  resolvers := Vector.replicate 4 DriveResolver.reset
  arbiter := Arbiter.reset
  positions := Vector.replicate 24 PositionRecord.reset
  captures := CaptureUnit.reset
  handler := RequestHandler.reset
  journal := JournalWriter.reset
  status := StatusWriter.reset
  irqEnable := 0
  links := Vector.replicate 4 ChannelLinks.reset
  trips := []
  pending := []

end Sys2Proof.Machine
end

