-- ==== Sys2Proof/Machine/Ops.lean ====
section
/-! DEFINITION. The operations every block uses: common memory, the fields of State, the time counter, sending
journal records, and deliveries. -/

namespace Sys2Proof.Machine

/-! ## Common memory (R150, R171) -/

/-- The canonical form: rising addresses inside the 64 KiB, and no listed byte that is zero. -/
def Memory.wf (m : Memory) : Bool :=
  decide (m.Pairwise (fun x y => x.1 < y.1)) && m.all (fun x => decide (x.1 < Config.memorySize) && x.2 != 0)

/-- A byte of common memory; an unlisted one is 0 (R160). -/
def readByte (m : Memory) (a : Nat) : Byte :=
  match m.find? (fun x => x.1 == a) with
  | some x => x.2
  | none => 0

/-- The listed cells of a run of bytes. -/
def cells : Nat → List Byte → Memory
  | _, [] => []
  | a, b :: bs => if b = 0 then cells (a + 1) bs else (a, b) :: cells (a + 1) bs

/-- Common memory with the bytes `bs` written from address `a` on. -/
def writeBytes (m : Memory) (a : Nat) (bs : List Byte) : Memory :=
  m.filter (fun x => decide (x.1 < a)) ++ cells a bs ++ m.filter (fun x => decide (a + bs.length ≤ x.1))

/-- Common memory with `n` bytes from `a` on set to zero. -/
def zeroRange (m : Memory) (a n : Nat) : Memory :=
  m.filter (fun x => decide (x.1 < a ∨ a + n ≤ x.1))

/-- R171: an unsigned little-endian number of `n` bytes. -/
def readNum (m : Memory) (a : Nat) : Nat → Nat
  | 0 => 0
  | n + 1 => (readByte m a).toNat + 256 * readNum m (a + 1) n

/-- R171: the `n` bytes of a number, low byte first. -/
def numBytes : Nat → Nat → List Byte
  | 0, _ => []
  | n + 1, v => BitVec.ofNat 8 v :: numBytes n (v / 256)

/-! ## Fields of State -/

/-- Applies `f` at each element in turn. -/
def forEach {α : Type} (l : List α) (f : α → State → State) (s : State) : State :=
  l.foldl (fun t x => f x t) s

namespace State

def chan (s : State) (c : Channel) : ChannelController := look s.chans c
def strike (s : State) (c : Channel) : StrikeAccounting := look s.strikes c
def resolver (s : State) (c : Channel) : DriveResolver := look s.resolvers c
def monitor (s : State) (c : Channel) : MarkMonitor := look s.monitors c
def link (s : State) (c : Channel) : ChannelLinks := look s.links c
def position (s : State) (p : PositionIx) : PositionRecord := look s.positions p
def entry (s : State) (i : EntryIx) : LiveEntry := look s.evaluator.entries i
def buffer (s : State) (b : BufferIx) : CaptureBuffer := look s.captures.buffers b

def setMem (s : State) (m : Memory) : State := { s with mem := m }
def setScanner (s : State) (x : Scanner) : State := { s with scanner := x }
def setMonitor (s : State) (c : Channel) (x : MarkMonitor) : State := { s with monitors := put s.monitors c x }
def setEvaluator (s : State) (x : Evaluator) : State := { s with evaluator := x }
def setChan (s : State) (c : Channel) (x : ChannelController) : State := { s with chans := put s.chans c x }
def setStrike (s : State) (c : Channel) (x : StrikeAccounting) : State := { s with strikes := put s.strikes c x }
def setResolver (s : State) (c : Channel) (x : DriveResolver) : State := { s with resolvers := put s.resolvers c x }
def setArbiter (s : State) (x : Arbiter) : State := { s with arbiter := x }
def setPosition (s : State) (p : PositionIx) (x : PositionRecord) : State := { s with positions := put s.positions p x }
def setCaptures (s : State) (x : CaptureUnit) : State := { s with captures := x }
def setHandler (s : State) (x : RequestHandler) : State := { s with handler := x }
def setJournal (s : State) (x : JournalWriter) : State := { s with journal := x }
def setStatus (s : State) (x : StatusWriter) : State := { s with status := x }
def setLink (s : State) (c : Channel) (x : ChannelLinks) : State := { s with links := put s.links c x }
def setTrips (s : State) (x : List TripDelivery) : State := { s with trips := x }
def setEntry (s : State) (i : EntryIx) (x : LiveEntry) : State :=
  s.setEvaluator { s.evaluator with entries := put s.evaluator.entries i x }
def setBuffer (s : State) (b : BufferIx) (x : CaptureBuffer) : State :=
  s.setCaptures { s.captures with buffers := put s.captures.buffers b x }

/-- R150: the card writes bytes of its own areas. -/
def write (s : State) (a : Nat) (bs : List Byte) : State := s.setMem (writeBytes s.mem a bs)

end State

/-- R159 to R161: out of reset, initializing or READY; samples, lines, marks and time are taken. -/
def running (s : State) : Bool :=
  match s.phase with
  | .initializing | .ready => true
  | .unpowered | .held _ => false

/-- The parameters of a channel; a channel that needs them has a profile loaded. -/
def profileOf (s : State) (c : Channel) : Profile := (s.chan c).profile.getD Profile.blank

/-! ## Time (R1) -/

/-- R76: the time since `t`, modulo 2^32. -/
def age (now t : Time) : Nat := (now - t).toNat

/-- A running timer has reached its end: the end lies in the half of the wrapping counter's range that is not
ahead (DEDUCED, log 10). -/
def reached (now finish : Time) : Bool := decide (age now finish < 2147483648)

/-- A timer's end, `ms` from now, modulo 2^32. -/
def later (now : Time) (ms : Nat) : Time := now + BitVec.ofNat 32 ms

/-! ## Sending records (R165) -/

/-- A block sends a record; `after` is what R165 has numbered before it. -/
def sendRecord (sender : Sender) (after : Option Stamp) (awaits : Bool) (r : Record) (s : State) : State :=
  s.setJournal { s.journal with
    waiting := s.journal.waiting ++ [⟨s.journal.sent, sender, after, r, awaits⟩]
    sent := s.journal.sent + 1 }

/-! ## Deliveries -/

/-- The Input Scanner delivers to a Channel Controller, in order (R8). -/
def deliverScanner (c : Channel) (e : ScannerEvent) (s : State) : State :=
  s.setLink c { s.link c with fromScanner := (s.link c).fromScanner ++ [⟨e, s.journal.sent⟩] }

/-- The Condition Evaluator delivers to a Channel Controller, in order (R33). -/
def deliverEvaluator (c : Channel) (e : EvaluatorEvent) (s : State) : State :=
  s.setLink c { s.link c with fromEvaluator := (s.link c).fromEvaluator ++ [⟨e, s.journal.sent⟩] }

/-- The Condition Evaluator delivers a join or a leave to a Drive Resolver, in order (R116). -/
def deliverFoldback (c : Channel) (d : FoldbackDelivery) (s : State) : State :=
  s.setLink c { s.link c with foldback := (s.link c).foldback ++ [d] }

/-- The Foldback Controller delivers a FOLDBACK_EXHAUSTED strike (R118). -/
def deliverExhausted (c : Channel) (s : State) : State :=
  s.setLink c { s.link c with exhausted := (s.link c).exhausted + 1 }

/-- The Drive Resolver tells a ramp completion (R102, R103). -/
def tellCompletion (c : Channel) (s : State) : State :=
  s.setLink c { s.link c with completions := (s.link c).completions + 1 }

/-- The Arbiter delivers a preemption (R104). -/
def deliverPreemption (c : Channel) (s : State) : State :=
  s.setLink c { s.link c with preemptions := (s.link c).preemptions + 1 }

/-- The Frame Mark Monitor delivers a mark, real or synthetic (R16, R17). -/
def deliverMark (c : Channel) (s : State) : State :=
  s.setLink c { s.link c with marks := (s.link c).marks + 1 }

/-- The Drive Resolver reports a ramp step to the Arbiter (R104). -/
def reportStep (c : Channel) (s : State) : State :=
  s.setLink c { s.link c with reports := (s.link c).reports + 1 }

/-- The Position Monitor sends a count to a Drive Resolver, in order (R115, R130). -/
def deliverCount (c : Channel) (n : Nat) (s : State) : State :=
  s.setLink c { s.link c with counts := (s.link c).counts ++ [n] }

/-- The Condition Evaluator delivers a trip to the Position Monitor (R35). -/
def deliverTrip (p : PositionIx) (e : EntryIx) (s : State) : State :=
  s.setTrips (s.trips ++ [⟨p, e, s.journal.sent⟩])

/-- Everything of `Fin n`, the members of `first` ahead in their order: some order the manual leaves open. -/
def inOrder {n : Nat} (first : List (Fin n)) : List (Fin n) :=
  first.foldr (fun x rest => x :: rest.filter (fun y => y != x)) (List.finRange n)

end Sys2Proof.Machine
end

