-- ==== Sys2Proof/Machine/Flags.lean ====
section
/-! DEFINITION. What follows the state at every event: the sets a mask names, which channels a condition or an
arc line bears on, the resolved level, the output lines, the interrupt sources and the registers. -/

namespace Sys2Proof.Machine

/-- RAMPING, PAUSED and ON (section 3.1). -/
def ChannelState.live : ChannelState → Bool
  | .ramping | .paused | .on => true
  | .off | .queued | .holdoff | .confirmWait | .lockout | .interlocked => false

/-- QUEUED and PAUSED: in the re-strike queue (section 3.1). -/
def ChannelState.waiting : ChannelState → Bool
  | .queued | .paused => true
  | .off | .ramping | .on | .holdoff | .confirmWait | .lockout | .interlocked => false

/-- The channels of a mask, bit 0 for channel A (chapter 0). -/
def channelsOf (mask : Nat) : List Channel := allChannels.filter (fun c => mask.testBit c.val)

/-- The channel a position belongs to (chapter 0). -/
def channelOf (p : PositionIx) : Channel := ⟨p.val / 6, by omega⟩

/-- The position of slot `k` (0 for slot 1) of a channel (chapter 0). -/
def positionOf (c : Channel) (k : Fin 6) : PositionIx := ⟨c.val * 6 + k.val, by omega⟩

/-! ## Conditions in force (R29) -/

/-- R170. -/
def compareOf : Nat → Option Compare
  | 1 => some .above
  | 2 => some .below
  | 3 => some .outside
  | 4 => some .ratioAbove
  | 5 => some .stepAbove
  | _ => none

/-- R170. -/
def actionOf : Nat → Option Action
  | 1 => some .note
  | 2 => some .foldback
  | 3 => some .strike
  | 4 => some .lockout
  | 5 => some .positionTrip
  | _ => none

/-- R29: in force while ACTIVE and while CLEARING. -/
def LiveEntry.inForce (e : LiveEntry) : Bool := e.state == .active || e.state == .clearing

/-- R29: an in-force entry of the action with the channel in its scope. -/
def bearsOn (a : Action) (c : Channel) (e : LiveEntry) : Bool :=
  e.inForce && actionOf e.fields.action == some a && e.fields.scope.testBit c.val

/-- R29: the lowest-index in-force entry of the action with the channel in its scope. -/
def entryBearing (a : Action) (c : Channel) (s : State) : Option EntryIx :=
  (List.finRange 96).find? (fun i => bearsOn a c (s.entry i))

/-- R29: whether an in-force POSITION_TRIP entry names the position. -/
def tripBearing (p : PositionIx) (s : State) : Bool :=
  (List.finRange 96).any (fun i => (s.entry i).inForce
    && actionOf (s.entry i).fields.action == some .positionTrip && (s.entry i).fields.scope == p.val)

/-! ## Arc lines (R8) -/

/-- The settings enable the line and have the channel in its scope. -/
def covers (st : SiteSettings) (l : ArcLine) (c : Channel) : Bool :=
  st.arcEnable.getLsbD l.val && (look st.arcScope l).getLsbD c.val

/-- R8: the line holds the channel. -/
def arcHolds (s : State) (l : ArcLine) (c : Channel) : Bool :=
  look s.scanner.arcAsserted l && covers s.evaluator.settings l c

/-- R65: the lowest-numbered line that holds the channel. -/
def arcBearing (c : Channel) (s : State) : Option ArcLine :=
  (List.finRange 8).find? (fun l => arcHolds s l c)

/-! ## The limit set (R111) -/

/-- The levels present in the limit set. -/
def DriveResolver.levels (r : DriveResolver) : List Nat :=
  [r.ramp, r.foldback, r.positions, r.target].filterMap id

/-- R111: the smallest level present, 0 when the set is empty. -/
def DriveResolver.resolved (r : DriveResolver) : Nat := (r.levels.min?).getD 0

/-- R111: the source of the smallest level, ties going to RAMP, FOLDBACK, POSITIONS, TARGET in that order. -/
def DriveResolver.governing (r : DriveResolver) : Source :=
  if r.ramp = some r.resolved then .ramp
  else if r.foldback = some r.resolved then .foldback
  else if r.positions = some r.resolved then .positions
  else if r.target = some r.resolved then .target
  else .none

/-- R102: the RAMP entry is at or above the smallest level of the other entries. -/
def DriveResolver.rampComplete (r : DriveResolver) : Bool :=
  match r.ramp, ([r.foldback, r.positions, r.target].filterMap id).min? with
  | some level, some other => decide (other ≤ level)
  | _, _ => false

/-! ## Positions (R130) -/

/-- R130: the number of the channel's positions that are ACTIVE. -/
def activeCount (s : State) (c : Channel) : Nat :=
  ((List.finRange 6).filter (fun k => (s.position (positionOf c k)).state == .active)).length

/-! ## Interrupt sources (R158) -/

/-- A request slot's first byte. -/
def slotAddress (k : SlotIx) : Nat := Config.slotBase + 64 * k.val

/-- R171: a slot's 16-bit word at an offset. -/
def slotWord (m : Memory) (k : SlotIx) (offset : Nat) : Nat := readNum m (slotAddress k + offset) 2

/-- R158: some slot's state word holds DONE. -/
def reqDonePending (s : State) : Bool := (List.finRange 16).any (fun k => slotWord s.mem k 0 == 3)

/-- R167: the release word. -/
def releaseWord (m : Memory) : Nat := readNum m Config.releaseBase 4

/-- R158, R167: the newest sequence differs from the release word. -/
def journalPending (s : State) : Bool := s.journal.newest.toNat != releaseWord s.mem

/-- R158: some confirmation record is PENDING. -/
def confirmPending (s : State) : Bool := allChannels.any (fun c => (s.strike c).pending)

/-- R158: some capture buffer is READY. -/
def capturePending (s : State) : Bool := (List.finRange 4).any (fun b => (s.buffer b).state == .ready)

/-- The four sources as the bits of IRQ_ENABLE (section 11.2). -/
def pendingSources (s : State) : BitVec 4 :=
  BitVec.ofBool (capturePending s) ++ BitVec.ofBool (confirmPending s)
    ++ BitVec.ofBool (journalPending s) ++ BitVec.ofBool (reqDonePending s)

/-! ## Output lines -/

/-- R158: the IRQ line; deasserted in reset and while initializing. -/
def irqLine (s : State) : Bool :=
  match s.phase with
  | .ready => pendingSources s &&& s.irqEnable != 0
  | .initializing | .held _ => false
  | .unpowered => Config.unpoweredLine 0

/-- R74: the site alarm relay is energized. -/
def relayEnergized (s : State) : Bool :=
  match s.phase with
  | .ready => allChannels.all (fun c => (s.chan c).state != .lockout)
      && (List.finRange 24).all (fun p => (s.position p).state != .tripped) && s.scanner.interlockClosed
  | .initializing | .held _ | .unpowered => false

/-- R49: the MUTE output of a channel is asserted. -/
def muteLine (s : State) (c : Channel) : Bool :=
  match s.phase with
  | .unpowered => Config.unpoweredLine (1 + c.val)
  | .held _ | .initializing | .ready => (s.chan c).mute

/-- Section 6.2: the voltage of a channel's drive-level output, in millivolts. -/
def driveMillivolts (s : State) (c : Channel) : Nat :=
  match s.phase with
  | .unpowered => Config.unpoweredDrive c.val
  | .held _ | .initializing | .ready => 10 * (s.resolver c).drive

/-- R130: the BIAS output of a position is on. -/
def biasLine (s : State) (p : PositionIx) : Bool :=
  match s.phase with
  | .unpowered => Config.unpoweredLine (5 + p.val)
  | .held _ | .initializing | .ready => (s.position p).bias

/-! ## Registers (R157, section 11.2) -/

/-- The five registers. -/
def statusRegister (s : State) : Word :=
  match s.phase with
  | .unpowered => Config.unpoweredRegister 0
  | .held _ => 0
  | .initializing | .ready =>
    0#7 ++ BitVec.ofBool s.scanner.interlockClosed ++ BitVec.ofBool s.evaluator.configured ++ pendingSources s
      ++ BitVec.ofBool s.handler.sweep.isSome ++ BitVec.ofBool s.handler.ack
      ++ BitVec.ofBool (s.phase == .ready)

/-- What a read of the register at offset 0x0, 0x2, 0x4, 0x6 or 0x8 returns, that is register 0 to 4. -/
def registerRead (s : State) (r : Fin 5) : Word :=
  match s.phase, r with
  | .unpowered, r => Config.unpoweredRegister r.val
  | _, 0 => statusRegister s
  | _, 1 => 0
  | _, 2 => s.irqEnable.setWidth 16
  | _, 3 => 0
  | _, _ => Config.ident

/-- R102: the ramp engine is held by the channel. -/
def holdsEngine (s : State) (c : Channel) : Bool := s.arbiter.engine == .held c

end Sys2Proof.Machine
end

