-- ==== Sys2Proof/Machine/Operands.lean ====
section
/-! DEFINITION. What commands read: request slots, the drafts of the site controller and their checks, and the
codes in which the card writes named values (R170). -/

namespace Sys2Proof.Machine

/-! ## Requests -/

/-- R170: the request kinds. -/
def kindOf : Nat → Option RequestKind
  | 1 => some .loadConditions
  | 2 => some .loadProfile
  | 3 => some .channelOn
  | 4 => some .channelOff
  | 5 => some .setTarget
  | 6 => some .confirmRestrike
  | 7 => some .releaseLockout
  | 8 => some .clearCondition
  | 9 => some .enablePosition
  | 10 => some .disablePosition
  | 11 => some .holdCapture
  | 12 => some .releaseCapture
  | _ => none

/-- The argument words 1 to 3 that a take copies (R152). -/
structure Arguments where
  word1 : Nat
  word2 : Nat
  word3 : Nat
  deriving DecidableEq, Repr

/-- R152, R171: the arguments of the request in a slot. -/
def argumentsOf (m : Memory) (k : SlotIx) : Arguments :=
  ⟨slotWord m k 0x06, slotWord m k 0x08, slotWord m k 0x0A⟩

/-- R171: the trigger sequence of HOLD_CAPTURE and RELEASE_CAPTURE. -/
def Arguments.sequence (a : Arguments) : Nat := a.word2 + 65536 * a.word3

/-- A result code and result detail (R153). -/
structure Reply where
  code : ResultCode
  detail1 : Nat := 0
  detail2 : Nat := 0
  deriving DecidableEq, Repr

/-- An argument that names one of `n` things, if it does. -/
def index (n w : Nat) : Option (Fin n) := if h : w < n then some ⟨w, h⟩ else none

/-! ## Drafts (section 11.3) -/

/-- R171: a condition draft. -/
def readCondition (m : Memory) (i : EntryIx) : ConditionFields :=
  let a := Config.conditionBase + 32 * i.val
  { enable := readNum m a 1, compare := readNum m (a + 0x01) 1, pointA := readNum m (a + 0x02) 1
    pointB := readNum m (a + 0x03) 1, level1 := readNum m (a + 0x04) 2, level2 := readNum m (a + 0x06) 2
    band := readNum m (a + 0x08) 2, setCount := readNum m (a + 0x0A) 1, clearCount := readNum m (a + 0x0B) 1
    action := readNum m (a + 0x0C) 1, scope := readNum m (a + 0x0D) 1, latch := readNum m (a + 0x0E) 1
    capture := readNum m (a + 0x0F) 1 }

/-- R171: the site settings draft. -/
def readSettings (m : Memory) : SiteSettings :=
  let a := Config.settingsBase
  { arcEnable := readByte m a
    arcScope := #v[readByte m (a + 4), readByte m (a + 5), readByte m (a + 6), readByte m (a + 7),
      readByte m (a + 8), readByte m (a + 9), readByte m (a + 10), readByte m (a + 11)]
    preemptHold := readNum m (a + 0x01) 1, captureEnable := readNum m (a + 0x02) 1
    capturePolicy := readNum m (a + 0x03) 1 }

/-- R171: a channel's profile draft. -/
def readProfile (m : Memory) (c : Channel) : Profile :=
  let a := Config.profileBase + 64 * c.val
  { installed := readNum m a 1, identity := readNum m (a + 0x01) 1
    ceiling := #v[readNum m (a + 0x02) 2, readNum m (a + 0x04) 2, readNum m (a + 0x06) 2, readNum m (a + 0x08) 2,
      readNum m (a + 0x0A) 2, readNum m (a + 0x0C) 2, readNum m (a + 0x0E) 2]
    group := readNum m (a + 0x10) 1, confirmThreshold := readNum m (a + 0x11) 1
    rampStep := readNum m (a + 0x12) 2, rampSpacing := readNum m (a + 0x14) 2
    holdoffTime := readNum m (a + 0x16) 2, strikeWindow := readNum m (a + 0x18) 2
    lockoutThreshold := readNum m (a + 0x1A) 1, escalation := readNum m (a + 0x1B) 1
    confirmTimeout := readNum m (a + 0x1C) 2, foldbackStep := readNum m (a + 0x1E) 2
    recoveryStep := readNum m (a + 0x20) 2, foldbackFloor := readNum m (a + 0x22) 2
    markTimeout := readNum m (a + 0x24) 2 }

/-! ## Checks -/

/-- The number of the first field whose check fails. -/
def firstFailure : List (Nat × Bool) → Option Nat
  | [] => none
  | (n, good) :: rest => if good then firstFailure rest else some n

/-- R41: a level's range. -/
def levelInRange (cmp : Option Compare) (level : Nat) : Bool :=
  if cmp = some .ratioAbove then decide (level ≤ 60000) else decide (level ≤ 4095)

/-- R41, field 6: level 2 against level 1. -/
def levelsAgree (cmp : Option Compare) (level1 level2 : Nat) : Bool :=
  match cmp with
  | some .below => decide (level1 ≤ level2)
  | some .outside => decide (level1 < level2)
  | _ => decide (level2 ≤ level1)

/-- R41, field 7. -/
def bandInRange (cmp : Option Compare) (f : ConditionFields) : Bool :=
  match cmp with
  | some .outside => decide (2 * f.band < f.level2 - f.level1)
  | some .ratioAbove => decide (1 ≤ f.band ∧ f.band ≤ 4095)
  | _ => true

/-- R41, field 11. -/
def scopeInRange (a : Option Action) (scope : Nat) : Bool :=
  match a with
  | some .note => decide (scope < 16)
  | some .positionTrip => decide (scope < 24)
  | _ => decide (0 < scope ∧ scope < 16)

/-- R41: the first failing field of a draft entry; a disabled one is not checked beyond field 1. -/
def checkCondition (f : ConditionFields) : Option Nat :=
  if f.enable = 0 then none
  else
    let cmp := compareOf f.compare
    firstFailure [
      (1, decide (f.enable = 1)),
      (2, cmp.isSome),
      (3, decide (f.pointA ≤ 95)),
      (4, decide (cmp = some .ratioAbove → f.pointB ≤ 95)),
      (5, levelInRange cmp f.level1),
      (6, levelInRange cmp f.level2 && levelsAgree cmp f.level1 f.level2),
      (7, bandInRange cmp f),
      (8, decide (1 ≤ f.setCount ∧ f.setCount ≤ 255)),
      (9, decide (1 ≤ f.clearCount ∧ f.clearCount ≤ 255)),
      (10, (actionOf f.action).isSome),
      (11, scopeInRange (actionOf f.action) f.scope),
      (12, decide (f.latch ≤ 1)),
      (13, decide (f.capture ≤ 1))]

/-- R42: the first failing field of the site settings draft. -/
def checkSettings (st : SiteSettings) : Option Nat :=
  firstFailure [
    (2, (List.finRange 8).all (fun l => decide ((look st.arcScope l).toNat < 16))),
    (3, decide (st.preemptHold ≤ 255)),
    (4, decide (st.captureEnable ≤ 1)),
    (5, decide (st.capturePolicy ≤ 1))]

/-- R51: the first failing field of a profile draft. -/
def checkProfile (p : Profile) : Option Nat :=
  firstFailure ([
    (1, decide (p.installed < 64)),
    (2, decide (p.identity ≤ 0xFE)),
    (3, decide (look p.ceiling 0 = 0))]
    ++ (List.finRange 6).map (fun k => (4 + k.val,
      decide (look p.ceiling k.succ ≤ 1000 ∧ look p.ceiling k.castSucc ≤ look p.ceiling k.succ)))
    ++ [
    (10, decide (p.group ≤ 1)),
    (11, decide (1 ≤ p.rampStep ∧ p.rampStep ≤ 1000)),
    (12, decide (5 ≤ p.rampSpacing ∧ p.rampSpacing ≤ 500)),
    (13, decide (20 ≤ p.holdoffTime ∧ p.holdoffTime ≤ 5000)),
    (14, decide (1 ≤ p.strikeWindow ∧ p.strikeWindow ≤ 3600)),
    (15, decide (p.confirmThreshold ≤ 7)),
    (16, decide (1 ≤ p.lockoutThreshold ∧ p.lockoutThreshold ≤ 8
      ∧ (p.confirmThreshold ≠ 0 → p.confirmThreshold < p.lockoutThreshold))),
    (17, decide (5 ≤ p.confirmTimeout ∧ p.confirmTimeout ≤ 600)),
    (18, decide (1 ≤ p.foldbackStep ∧ p.foldbackStep ≤ 200)),
    (19, decide (1 ≤ p.recoveryStep ∧ p.recoveryStep ≤ 200)),
    (20, decide (p.foldbackFloor ≤ 1000)),
    (21, decide (p.escalation ≤ 255)),
    (22, decide (20 ≤ p.markTimeout ∧ p.markTimeout ≤ 1000))])

/-- The profile's ramp group is LOW (R51, R170). -/
def Profile.isLow (p : Profile) : Bool := p.group == 1

/-- The position of slot `k` is installed (R51). -/
def Profile.installs (p : Profile) (k : Fin 6) : Bool := p.installed.testBit k.val

/-! ## Codes (R170) -/

/-- R170. -/
def ChannelState.code : ChannelState → Nat
  | .off => 0 | .queued => 1 | .ramping => 2 | .paused => 3 | .on => 4 | .holdoff => 5 | .confirmWait => 6
  | .lockout => 7 | .interlocked => 8

/-- R170. -/
def PositionState.code : PositionState → Nat
  | .empty => 0 | .identifying => 1 | .refused => 2 | .disabled => 3 | .active => 4 | .tripped => 5

/-- R170. -/
def EntryState.code : EntryState → Nat
  | .disabled => 0 | .normal => 1 | .arming => 2 | .active => 3 | .clearing => 4

/-- R170. -/
def BufferState.code : BufferState → Nat
  | .free => 0 | .filling => 1 | .ready => 2 | .held => 3

/-- R170. -/
def RecordKind.code : RecordKind → Nat
  | .strike => 1 | .mutedStrike => 2 | .lockout => 3 | .confirmPosted => 4 | .confirmAnswered => 5
  | .confirmExpired => 6 | .restored => 7 | .conditionSet => 8 | .conditionCleared => 9 | .positionChanged => 10
  | .interlockOpened => 11 | .interlockClosed => 12 | .frameMarkLost => 13 | .frameMarkBack => 14
  | .channelChanged => 15

/-- R170. -/
def ResultCode.code : ResultCode → Nat
  | .ok => 0 | .badKind => 1 | .badArgument => 2 | .notConfigured => 3 | .noProfile => 4 | .wrongState => 5
  | .channelActive => 6 | .interlocked => 7 | .stillActive => 8 | .late => 9 | .gone => 10 | .tableError => 11
  | .notInstalled => 12

/-- R170. -/
def Source.code : Source → Nat
  | .none => 0 | .ramp => 1 | .foldback => 2 | .positions => 3 | .target => 4

/-- R170: the new state field of a record. -/
def NewState.code : NewState → Nat
  | .none => 0xFF | .channel st => st.code | .position st => st.code

/-- R170: a one-byte field that may be absent. -/
def byteOrNone {n : Nat} : Option (Fin n) → Nat
  | some i => i.val
  | none => 0xFF

/-- R170: a two-byte level that may be absent. -/
def levelOrNone : Option Nat → Nat
  | some level => level
  | none => 0xFFFF

/-- 1 for yes. -/
def flag (b : Bool) : Nat := if b then 1 else 0

/-- Section 11.4: the 32 bytes of a journal record. -/
def recordBytes (sequence : Seq) (r : Record) : List Byte :=
  numBytes 4 sequence.toNat ++ numBytes 4 r.time.toNat ++ numBytes 1 r.kind.code ++ numBytes 1 (byteOrNone r.channel)
    ++ numBytes 1 (byteOrNone r.position) ++ numBytes 1 (byteOrNone r.condition)
    ++ numBytes 1 (match r.line with | some l => l.val + 1 | none => 0xFF)
    ++ numBytes 1 r.newState.code ++ numBytes 1 r.strikeCount ++ numBytes 1 (byteOrNone r.buffer)
    ++ numBytes 4 (r.value.getD 0xFFFFFFFF)
    ++ numBytes 1 (flag r.joined + 2 * flag r.replaced + 4 * flag r.withdrawn + 8 * flag r.extended)
    ++ numBytes 11 0

end Sys2Proof.Machine
end

