-- ==== Sys2Proof/Machine/Captures.lean ====
section
/-! DEFINITION. The Capture Unit (chapter 8): triggers, the post-trigger fill, holding and releasing. -/

namespace Sys2Proof.Machine

/-- R149: a header is written into common memory (section 11.4), the bytes no layout assigns as zero (R170). -/
def writeCaptureHeader (b : BufferIx) (s : State) : State :=
  let h := s.buffer b
  s.write (Config.captureHeaderBase + 32 * b.val)
    (numBytes 2 h.state.code ++ numBytes 2 h.mask.toNat ++ numBytes 4 h.sequence.toNat ++ numBytes 4 h.time.toNat
      ++ numBytes 20 0)

/-- A buffer's header is changed and written (R149). -/
def changeBuffer (b : BufferIx) (h : CaptureBuffer) (s : State) : State :=
  writeCaptureHeader b (s.setBuffer b h)

/-- The lowest-numbered buffer in a state. -/
def findBuffer (st : BufferState) (s : State) : Option BufferIx :=
  (List.finRange 4).find? (fun b => (s.buffer b).state == st)

/-! ## Triggers -/

/-- R15: the values of a ring from its write index on, oldest first. -/
def ringSample (r : Ring) (k : Nat) : Nat := look r.slots ⟨(r.index.val + k) % 64, by omega⟩

/-- R15, section 11.4: the bytes of pre-trigger samples 0 to 63, sample by sample in capture order. -/
def preTriggerBytes (sc : Scanner) : List Byte :=
  (List.range 64).flatMap (fun k =>
    (List.finRange 6).flatMap (fun j => numBytes 2 (ringSample (look sc.rings j) k)))

/-- R142: a trigger starts a buffer, FREE or reused. -/
def startCapture (b : BufferIx) (c : Channel) (s : State) : State :=
  let s := changeBuffer b ⟨.filling, 0, s.now, 1#4 <<< c.val⟩ s
  let s := s.write (Config.captureDataBase + 1536 * b.val) (preTriggerBytes s.scanner)
  s.setCaptures { s.captures with postCounts := Vector.replicate 6 0 }

/-- R141: a trigger joins the FILLING buffer. -/
def joinCapture (b : BufferIx) (c : Channel) (s : State) : State :=
  changeBuffer b { s.buffer b with mask := (s.buffer b).mask ||| 1#4 <<< c.val } s

/-- R146: how far a trigger sequence lies back from the newest one, round the wrap from 1 to 4,294,967,295. -/
def sequencesBack (newest q : Seq) : Nat :=
  if q.toNat ≤ newest.toNat then newest.toNat - q.toNat else newest.toNat + 4294967295 - q.toNat

/-- R146: the READY buffer whose trigger record is oldest. Of two with one trigger sequence, a whole cycle of the
numbers apart, the lower-numbered is taken (DESIGN CHOICE, log 35). -/
def oldestReady (s : State) : Option BufferIx :=
  ((List.finRange 4).filter (fun b => (s.buffer b).state == .ready)).foldl
    (fun best b => match best with
      | none => some b
      | some a => if sequencesBack s.journal.newest (s.buffer a).sequence
          < sequencesBack s.journal.newest (s.buffer b).sequence then some b else some a) none

/-- R140: where a trigger goes: the buffer, if any, and whether it joins. -/
inductive TriggerOutcome where
  | noCapture
  | joins (b : BufferIx)
  | starts (b : BufferIx)
  deriving DecidableEq, Repr

/-- R140: the first line of the table that fits. -/
def triggerOutcome (s : State) : TriggerOutcome :=
  if s.evaluator.settings.captureEnable = 1 then
    match findBuffer .filling s with
    | some b => .joins b
    | none =>
      match findBuffer .free s with
      | some b => .starts b
      | none =>
        if s.evaluator.settings.capturePolicy = 1 then
          match oldestReady s with
          | some b => .starts b
          | none => .noCapture
        else .noCapture
  else .noCapture

/-- The effect of an outcome on the buffers. -/
def takeTrigger (o : TriggerOutcome) (c : Channel) (s : State) : State :=
  match o with
  | .noCapture => s
  | .joins b => joinCapture b c s
  | .starts b => startCapture b c s

/-- R59, R60, R68: the answer goes into the record that waits for it. -/
def answerRecord (o : TriggerOutcome) (w : WaitingRecord) : WaitingRecord :=
  match o with
  | .noCapture => { w with awaitsCapture := false }
  | .joins b => { w with awaitsCapture := false, record := { w.record with buffer := some b, joined := true } }
  | .starts b => { w with awaitsCapture := false, record := { w.record with buffer := some b } }

/-- A record of the channel whose trigger the Capture Unit has not taken. -/
def awaitsFrom (c : Channel) (w : WaitingRecord) : Bool := w.awaitsCapture && w.sender == .channel c

/-- Changes the first element that fits. -/
def changeFirst {α : Type} (fits : α → Bool) (f : α → α) : List α → List α
  | [] => []
  | x :: rest => if fits x then f x :: rest else x :: changeFirst fits f rest

/-- CAPTURE_TRIGGER (R140): the Capture Unit takes the channel's next trigger and answers it. -/
def execCaptureTrigger (c : Channel) (s : State) : Host.Outcome State Fault Refusal :=
  if s.journal.waiting.any (awaitsFrom c) then
    let o := triggerOutcome s
    let t := takeTrigger o c s
    .next (t.setJournal { t.journal with waiting := changeFirst (awaitsFrom c) (answerRecord o) t.journal.waiting })
  else .next s

/-! ## The post-trigger fill -/

/-- R145: a FILLING buffer goes to READY once all post counts are 64 and its trigger sequence is written. -/
def finishFill (s : State) : State :=
  match findBuffer .filling s with
  | none => s
  | some b =>
    if (List.finRange 6).all (fun j => look s.captures.postCounts j == 64) && (s.buffer b).sequence != 0 then
      changeBuffer b { s.buffer b with state := .ready } s
    else s

/-- R144: an arrival of captured point `j` is written into the FILLING buffer. -/
def fillCapture (j : CapturedIx) (value : Nat) (s : State) : State :=
  match findBuffer .filling s with
  | none => s
  | some b =>
    let n := look s.captures.postCounts j
    if n < 64 then
      let s := s.write (Config.captureDataBase + 1536 * b.val + 12 * (64 + n) + 2 * j.val) (numBytes 2 value)
      finishFill (s.setCaptures { s.captures with postCounts := put s.captures.postCounts j (n + 1) })
    else s

/-- R143: the Capture Unit writes the starting record's sequence number into the buffer's header. -/
def writeTriggerSequence (b : BufferIx) (q : Seq) (s : State) : State :=
  finishFill (changeBuffer b { s.buffer b with sequence := q } s)

/-! ## Holding and releasing -/

/-- R147 and R148: what both requests ask of a buffer before they take it. -/
def captureRefusal (a : Arguments) (s : State) : BufferIx ⊕ ResultCode :=
  match index 4 a.word1 with
  | none => .inr .badArgument
  | some b =>
    match (s.buffer b).state with
    | .free | .filling => .inr .wrongState
    | .ready | .held => if (s.buffer b).sequence.toNat = a.sequence then .inl b else .inr .gone

/-- R147: HOLD_CAPTURE's work. -/
def holdCapture (a : Arguments) (s : State) : State × Reply :=
  match captureRefusal a s with
  | .inr code => (s, ⟨code, 0, 0⟩)
  | .inl b =>
    match (s.buffer b).state with
    | .ready => (changeBuffer b { s.buffer b with state := .held } s, ⟨.ok, 0, 0⟩)
    | .free | .filling | .held => (s, ⟨.ok, 0, 0⟩)

/-- R148: RELEASE_CAPTURE's work. -/
def releaseCapture (a : Arguments) (s : State) : State × Reply :=
  match captureRefusal a s with
  | .inr code => (s, ⟨code, 0, 0⟩)
  | .inl b => (changeBuffer b { s.buffer b with state := .free } s, ⟨.ok, 0, 0⟩)

end Sys2Proof.Machine
end

