-- ==== Sys2Proof/Machine/Journal.lean ====
section
/-! DEFINITION. The Journal Writer and the Status Writer (chapter 10). -/

namespace Sys2Proof.Machine

/-! ## The journal -/

/-- R164, step 1: one more than the newest sequence, 4,294,967,295 being followed by 1. -/
def nextSequence (q : Seq) : Seq := if q = 4294967295#32 then 1#32 else q + 1

/-- Section 11.4: the journal header, the bytes no layout assigns as zero (R170). -/
def writeJournalHeader (s : State) : State :=
  s.write Config.journalHeaderBase (numBytes 4 s.journal.newest.toNat ++ numBytes 2 s.journal.next.val ++ numBytes 26 0)

/-- R164, step 5: a STRIKE or LOCKOUT record that names a buffer without *joined* names its capture (R143). -/
def startedBuffer (r : Record) : Option BufferIx :=
  if (r.kind = .strike ∨ r.kind = .lockout) ∧ r.joined = false then r.buffer else none

/-- R164: the Journal Writer takes a record. -/
def numberRecord (r : Record) (s : State) : State :=
  let q := nextSequence s.journal.newest
  let s := s.write (Config.journalBase + 32 * s.journal.next.val) (recordBytes q r)
  let s := writeJournalHeader (s.setJournal { s.journal with newest := q, next := s.journal.next + 1 })
  match startedBuffer r with
  | none => s
  | some b => writeTriggerSequence b q s

/-- R165: every record that must be numbered before this one has been. -/
def inTurn (waiting : List WaitingRecord) (w : WaitingRecord) : Bool :=
  !w.awaitsCapture && match w.after with
    | none => true
    | some st => waiting.all (fun v => !(v.sender == st.sender && decide (v.serial < st.serial)))

/-- JOURNAL_RECORD (R164, R165): the Journal Writer takes the sender's next record. Before READY records wait
(R161). -/
def execJournalRecord (sender : Sender) (s : State) : Host.Outcome State Fault Refusal :=
  match s.phase, s.journal.waiting.find? (fun w => w.sender == sender) with
  | .ready, some w =>
    if inTurn s.journal.waiting w then
      .next (numberRecord w.record
        (s.setJournal { s.journal with waiting := s.journal.waiting.eraseP (fun v => v.sender == sender) }))
    else .next s
  | _, _ => .next s

/-- R161, R162: records held through initialization are numbered in the order they were sent. -/
def numberHeldRecords (s : State) : State :=
  let held := s.journal.waiting
  forEach (held.filter (fun w => !w.awaitsCapture)) (fun w t => numberRecord w.record t)
    (s.setJournal { s.journal with waiting := held.filter (fun w => w.awaitsCapture) })

/-! ## The status block -/

/-- A field of the status block: where it stands, its size, and its value. -/
structure StatusField where
  offset : Nat
  size : Nat
  value : Nat
  deriving DecidableEq, Repr

/-- Section 11.4: a channel's record in the status block. -/
def channelFields (s : State) (c : Channel) : List StatusField :=
  let a := 0x010 + 32 * c.val
  let r := s.resolver c
  [⟨a, 1, (s.chan c).state.code⟩, ⟨a + 0x01, 1, r.governing.code⟩, ⟨a + 0x02, 1, flag (s.monitor c).present⟩,
    ⟨a + 0x03, 1, (s.strike c).times.length⟩, ⟨a + 0x04, 2, levelOrNone r.target⟩,
    ⟨a + 0x06, 2, levelOrNone r.positions⟩, ⟨a + 0x08, 2, levelOrNone r.foldback⟩, ⟨a + 0x0A, 2, levelOrNone r.ramp⟩,
    ⟨a + 0x0C, 2, r.resolved⟩, ⟨a + 0x0E, 2, r.drive⟩, ⟨a + 0x10, 2, r.activeSet.length⟩,
    ⟨a + 0x12, 2, (s.strike c).number.toNat⟩, ⟨a + 0x14, 4, (s.monitor c).realMarks.toNat⟩, ⟨a + 0x18, 8, 0⟩]

/-- Section 11.4: a position's record in the status block. -/
def positionFields (s : State) (p : PositionIx) : List StatusField :=
  let a := 0x090 + 4 * p.val
  let r := s.position p
  [⟨a, 1, r.state.code⟩, ⟨a + 1, 1, r.identity.toNat⟩, ⟨a + 2, 1, flag r.bias⟩, ⟨a + 3, 1, 0⟩]

/-- R169 and section 11.4: the contents of the status block as the blocks stand, with its unassigned bytes as
zero (R170). The update count is written apart (R168). -/
def statusFields (s : State) : List StatusField :=
  [⟨0x004, 4, s.now.toNat⟩, ⟨0x008, 1, flag s.evaluator.configured⟩, ⟨0x009, 1, flag s.scanner.interlockClosed⟩,
    ⟨0x00A, 1, ((List.finRange 8).map (fun l => flag (look s.scanner.arcAsserted l) * 2 ^ l.val)).sum⟩,
    ⟨0x00B, 5, 0⟩]
  ++ allChannels.flatMap (channelFields s)
  ++ (List.finRange 24).flatMap (positionFields s)
  ++ (List.finRange 96).map (fun i => ⟨0x0F0 + i.val, 1, (s.entry i).state.code⟩)
  ++ (List.finRange 96).map (fun p => ⟨0x150 + 2 * p.val, 2, look s.scanner.latest p⟩)
  ++ [⟨0x210, Config.statusSize - 0x210, 0⟩]

/-- R168: the update count rises by one and is written. -/
def bumpUpdateCount (s : State) : State :=
  let s := s.setStatus { s.status with count := s.status.count + 1 }
  s.write Config.statusBase (numBytes 4 s.status.count.toNat)

/-- R169: one field is copied from its owning block, once in a rewrite. -/
def copyField (k : Nat) (s : State) : State :=
  match s.status.copied, (statusFields s)[k]? with
  | some done, some f =>
    if done.contains k then s
    else (s.write (Config.statusBase + f.offset) (numBytes f.size f.value)).setStatus
      { s.status with copied := some (k :: done) }
  | _, _ => s

/-- STATUS_REWRITE (R168, R169): when a rewrite is due the update count is made odd, and the fields named are
copied; during a rewrite further fields are copied. -/
def execStatusRewrite (fields : List Nat) (s : State) : Host.Outcome State Fault Refusal :=
  match s.phase, s.status.copied with
  | .ready, some _ => .next (forEach fields copyField s)
  | .ready, none =>
    if reached s.now s.status.due then
      let s := bumpUpdateCount s
      .next (forEach fields copyField (s.setStatus
        { s.status with copied := some [], due := later s.now Config.rewriteMs }))
    else .next s
  | _, _ => .next s

/-- STATUS_REWRITE_END (R168): what is not yet copied is copied, and the update count is made even. -/
def execStatusRewriteEnd (s : State) : Host.Outcome State Fault Refusal :=
  match s.status.copied with
  | none => .next s
  | some _ =>
    let s := forEach (List.range (statusFields s).length) copyField s
    let s := bumpUpdateCount s
    .next (s.setStatus { s.status with copied := none })

end Sys2Proof.Machine
end

