-- ==== Sys2Proof/Machine/Arbiter.lean ====
section
/-! DEFINITION. The Re-strike Arbiter and Ramp Engine (chapter 5): the queue, the grant, step reports, and the
Channel Controller's taking of a grant, a completion and a preemption. -/

namespace Sys2Proof.Machine

/-! ## The queue and the engine -/

/-- R94: a channel joins the tail of its profile's ramp group. -/
def joinTail (c : Channel) (s : State) : State :=
  if (profileOf s c).isLow then s.setArbiter { s.arbiter with low := s.arbiter.low ++ [c] }
  else s.setArbiter { s.arbiter with high := s.arbiter.high ++ [c] }

/-- R94: a preempted channel joins the head of the LOW group. -/
def joinHead (c : Channel) (s : State) : State := s.setArbiter { s.arbiter with low := c :: s.arbiter.low }

/-- R95: a channel leaves the queue, the others keeping their order. -/
def leaveQueue (c : Channel) (s : State) : State :=
  s.setArbiter { s.arbiter with
    high := s.arbiter.high.filter (fun d => d != c), low := s.arbiter.low.filter (fun d => d != c) }

/-- R99: the holder releases the engine. -/
def releaseEngine (c : Channel) (s : State) : State :=
  if s.arbiter.engine = .held c then s.setArbiter { s.arbiter with engine := .free } else s

/-- R97: with the engine FREE and the queue not empty, the head of HIGH, or else of LOW, is granted. -/
def offerGrant (s : State) : State :=
  match s.arbiter.engine, s.arbiter.high ++ s.arbiter.low with
  | .free, c :: _ => s.setArbiter { s.arbiter with engine := .granted c }
  | _, _ => s

/-! ## Channel Controller parts -/

/-- The channel goes to a state. -/
def setState (c : Channel) (st : ChannelState) (s : State) : State := s.setChan c { s.chan c with state := st }

/-- R73: a record about a channel, with its state and strike count as they stand. -/
def channelRecord (c : Channel) (kind : RecordKind) (s : State) : Record :=
  { time := s.now, kind := kind, channel := some c, newState := .channel (s.chan c).state
    strikeCount := (s.strike c).times.length }

/-- The Channel Controller or the Strike Accounting of a channel sends a record (R165, R166). -/
def sendChannel (c : Channel) (after : Option Stamp) (r : Record) (s : State) : State :=
  sendRecord (.channel c) after false r s

/-- R73: the channel's change is recorded as CHANNEL_CHANGED. -/
def recordChange (c : Channel) (after : Option Stamp) (s : State) : State :=
  sendChannel c after (channelRecord c .channelChanged s) s

/-- R112: a resolved level below the drive of a live channel cuts the drive at once. -/
def cut (c : Channel) (s : State) : State :=
  let r := s.resolver c
  if (s.chan c).mute = false ∧ r.resolved < r.drive then s.setResolver c { r with drive := r.resolved } else s

/-- The channel's RAMP entry is removed. -/
def dropRamp (c : Channel) (s : State) : State := s.setResolver c { s.resolver c with ramp := none }

/-! ## Events -/

/-- R98: the Arbiter's side of a grant taken in QUEUED or PAUSED. -/
def holdEngine (c : Channel) (s : State) : State :=
  let s := leaveQueue c s
  s.setArbiter { s.arbiter with engine := .held c, steps := 0, preemptionSent := false }

/-- GRANT_TAKEN (R55, R98): the Channel Controller takes the grant on its way, or hands it back. -/
def execGrantTaken (c : Channel) (s : State) : Host.Outcome State Fault Refusal :=
  if s.arbiter.engine = .granted c then
    match (s.chan c).state with
    | .queued =>
      let s := s.setResolver c { s.resolver c with ramp := some 0 }
      let s := s.setChan c { s.chan c with state := .ramping, mute := false }
      .next (recordChange c none (holdEngine c s))
    | .paused => .next (recordChange c none (holdEngine c (setState c .ramping s)))
    | .off | .ramping | .on | .holdoff | .confirmWait | .lockout | .interlocked =>
      .next (offerGrant (s.setArbiter { s.arbiter with engine := .free }))
  else .next s

/-- RAMP_COMPLETION (R56): a RAMPING channel takes a told completion and goes ON. -/
def execRampCompletion (c : Channel) (s : State) : Host.Outcome State Fault Refusal :=
  match (s.link c).completions with
  | 0 => .next s
  | n + 1 =>
    let s := s.setLink c { s.link c with completions := n }
    match (s.chan c).state with
    | .ramping =>
      let s := cut c (dropRamp c (setState c .on s))
      let s := sendChannel c none (channelRecord c .restored s) s
      .next (offerGrant (releaseEngine c s))
    | .off | .queued | .paused | .on | .holdoff | .confirmWait | .lockout | .interlocked => .next s

/-- PREEMPTION (R57, R105): a RAMPING channel of the LOW group goes to PAUSED and joins its head. A HIGH channel is
never preempted (R104): it takes a preemption left over from an earlier LOW grant with no effect (log 19). -/
def execPreemption (c : Channel) (s : State) : Host.Outcome State Fault Refusal :=
  match (s.link c).preemptions with
  | 0 => .next s
  | n + 1 =>
    let s := s.setLink c { s.link c with preemptions := n }
    match (s.chan c).state with
    | .ramping =>
      if (profileOf s c).isLow then
        let s := joinHead c (releaseEngine c (setState c .paused s))
        .next (offerGrant (recordChange c none s))
      else .next s
    | .off | .queued | .paused | .on | .holdoff | .confirmWait | .lockout | .interlocked => .next s

/-- R104: the preemption test of a report of the channel passes: the channel holds the engine, and is of the LOW
group, since a HIGH holder is never tested. -/
def preemptionDue (c : Channel) (s : State) : Bool :=
  holdsEngine s c && (profileOf s c).isLow && !s.arbiter.preemptionSent && s.evaluator.settings.preemptHold != 0
    && decide (s.evaluator.settings.preemptHold ≤ s.arbiter.steps) && !s.arbiter.high.isEmpty

/-- STEP_REPORT (R104, R122): the Arbiter takes a report; one of a channel that no longer holds the engine, or that
holds it again in the HIGH group, is taken with no preemption test. -/
def execStepReport (c : Channel) (s : State) : Host.Outcome State Fault Refusal :=
  match (s.link c).reports with
  | 0 => .next s
  | n + 1 =>
    let s := s.setLink c { s.link c with reports := n }
    if preemptionDue c s then
      .next (deliverPreemption c (s.setArbiter { s.arbiter with preemptionSent := true }))
    else .next s

end Sys2Proof.Machine
end

