-- ==== Sys2Proof/Machine/Strikes.lean ====
section
/-! DEFINITION. Strike Accounting (chapter 4): the strike list, the confirmation record, the verdicts, answers and
the expiry. -/

namespace Sys2Proof.Machine

/-! ## The strike list -/

/-- R76: entries older than the strike window are removed; one as old as the window is kept. The age is R76's, modulo
2^32, also at the wrap prune of R77 that finds an entry kept at the wrap before (DESIGN CHOICE, log 38). -/
def pruneTimes (now : Time) (windowSeconds : Nat) (times : List Time) : List Time :=
  times.filter (fun t => decide (age now t ≤ windowSeconds * 1000))

/-- R76: pruning a channel's strike list, measured now. -/
def prune (c : Channel) (s : State) : State :=
  s.setStrike c { s.strike c with
    times := pruneTimes s.now (profileOf s c).strikeWindow (s.strike c).times }

/-- R59, R78: a live strike is appended with its time. -/
def appendStrike (c : Channel) (s : State) : State :=
  s.setStrike c { s.strike c with times := (s.strike c).times ++ [s.now] }

/-! ## The confirmation record -/

/-- R80, section 11.4: a confirmation record is written into common memory. -/
def writeConfirmation (c : Channel) (s : State) : State :=
  let r := s.strike c
  s.write (Config.confirmationBase + 16 * c.val)
    (numBytes 2 (flag r.pending) ++ numBytes 2 c.val ++ numBytes 2 r.number.toNat ++ numBytes 2 r.count
      ++ numBytes 4 r.posted.toNat ++ numBytes 4 r.deadline.toNat)

/-- R81: the number after a confirmation number, 65535 being followed by 1. -/
def numberAfter (n : Word) : Word := if n = 65535#16 then 1#16 else n + 1

/-- R82, steps 1 to 3: the record is posted under the next number and the timer starts. -/
def postConfirmation (c : Channel) (s : State) : State :=
  let r := s.strike c
  let deadline := later s.now ((profileOf s c).confirmTimeout * 1000)
  writeConfirmation c (s.setStrike c { r with
    pending := true, number := r.nextNumber, nextNumber := numberAfter r.nextNumber
    count := r.times.length, posted := s.now, deadline := deadline, timer := some deadline })

/-- R80, R84 to R88: a PENDING record goes to NONE, keeping its other fields, and the timer stops. -/
def endConfirmation (c : Channel) (s : State) : State :=
  if (s.strike c).pending then
    writeConfirmation c (s.setStrike c { s.strike c with pending := false, timer := none })
  else s

/-! ## The verdict after a holdoff or an interlock closure -/

/-- R79: the card asks before the channel tries again. -/
def mustAsk (p : Profile) (count : Nat) : Bool :=
  p.confirmThreshold != 0 && decide (p.confirmThreshold ≤ count)

/-- R64, R70, R79: the list is pruned, and the channel is queued or a confirmation is posted. -/
def verdict (c : Channel) (extended : Bool) (after : Option Stamp) (s : State) : State :=
  let s := prune c s
  if mustAsk (profileOf s c) (s.strike c).times.length then
    let s := postConfirmation c (setState c .confirmWait s)
    sendChannel c after { channelRecord c .confirmPosted s with extended := extended } s
  else
    let s := joinTail c (setState c .queued s)
    offerGrant (sendChannel c after { channelRecord c .channelChanged s with extended := extended } s)

/-! ## Answers and the expiry -/

/-- R84: a matching ACCEPT. -/
def acceptAnswer (c : Channel) (s : State) : State :=
  let s := joinTail c (setState c .queued (endConfirmation c s))
  offerGrant (sendChannel c none (channelRecord c .confirmAnswered s) s)

/-- R85: a matching DECLINE. -/
def declineAnswer (c : Channel) (s : State) : State :=
  let s := setState c .lockout (endConfirmation c s)
  sendChannel c none (channelRecord c .confirmAnswered s) s

/-- R83: CONFIRM_RESTRIKE's work. -/
def confirmRestrike (a : Arguments) (s : State) : State × Reply :=
  match index 4 a.word1 with
  | none => (s, ⟨.badArgument, 0, 0⟩)
  | some c =>
    if 1 < a.word3 then (s, ⟨.badArgument, 0, 0⟩)
    else if (s.strike c).pending = true ∧ (s.strike c).number.toNat = a.word2 then
      (if a.word3 = 0 then acceptAnswer c s else declineAnswer c s, ⟨.ok, 0, 0⟩)
    else (s, ⟨.late, 0, 0⟩)

/-- CONFIRMATION_EXPIRY (R86): the confirmation timer runs out with the record PENDING. -/
def execConfirmationExpiry (c : Channel) (s : State) : Host.Outcome State Fault Refusal :=
  match (s.strike c).timer with
  | none => .next s
  | some finish =>
    if reached s.now finish ∧ (s.strike c).pending then
      let s := setState c .lockout (endConfirmation c s)
      .next (sendChannel c none (channelRecord c .confirmExpired s) s)
    else .next s

/-! ## The time counter (R1, R77) -/

/-- R77: at the wrap every channel's strike list is pruned, measured at that moment. -/
def wrapCounter (s : State) : State := forEach allChannels prune { s with now := 0 }

/-- R1: one millisecond passes. -/
def tick (s : State) : State :=
  if s.now = 4294967295#32 then wrapCounter s else { s with now := s.now + 1 }

/-- TIME_COUNTER_TICK (R1): the counter stands still while the card is in reset. -/
def execTimeCounterTick (s : State) : Host.Outcome State Fault Refusal :=
  if running s then .next (tick s) else .next s

/-- TIME_COUNTER_WRAP (R1, R77): the millisecond that takes the counter from 4,294,967,295 to 0. -/
def execTimeCounterWrap (s : State) : Host.Outcome State Fault Refusal :=
  if running s ∧ s.now = 4294967295#32 then .next (wrapCounter s) else .next s

end Sys2Proof.Machine
end

