-- ==== Sys2Proof/Machine/Drive.lean ====
section
/-! DEFINITION. The Drive Resolver and its Foldback Controller (chapter 6), with the ramp step of chapter 5. -/

namespace Sys2Proof.Machine

/-! ## Ramp steps (R100, R101) -/

/-- R100: a step is due at this mark. -/
def stepDue (c : Channel) (s : State) : Bool :=
  holdsEngine s c && (s.arbiter.steps == 0
    || decide ((profileOf s c).rampSpacing ≤ age s.now s.arbiter.lastStep))

/-- R100: the Arbiter records the step and the RAMP entry rises by the ramp step, no higher than 1000. -/
def rampStep (c : Channel) (s : State) : State :=
  let s := s.setArbiter { s.arbiter with steps := min 65535 (s.arbiter.steps + 1), lastStep := s.now }
  s.setResolver c { s.resolver c with
    ramp := (s.resolver c).ramp.map (fun level => min 1000 (level + (profileOf s c).rampStep)) }

/-! ## Foldback (R117 to R119) -/

/-- R118: the floor mark count after a foldback step that found the entry at the floor. -/
def floorMarksAfter (escalation count : Nat) : Nat :=
  if escalation = 0 ∨ count + 1 = escalation then 0 else count + 1

/-- R117, R118: a foldback step. -/
def foldbackStep (c : Channel) (s : State) : State :=
  let p := profileOf s c
  let r := s.resolver c
  let level := r.foldback.getD 1000
  let counts := r.foldback = some p.foldbackFloor
  let r' := { r with
    foldback := some (max (level - p.foldbackStep) p.foldbackFloor)
    floorMarks := if counts then (if p.escalation = 0 then r.floorMarks else floorMarksAfter p.escalation r.floorMarks)
      else r.floorMarks }
  let s := s.setResolver c r'
  if counts ∧ p.escalation ≠ 0 ∧ r.floorMarks + 1 = p.escalation then deliverExhausted c s else s

/-- R119: a recovery step. -/
def recoveryStep (c : Channel) (level : Nat) (s : State) : State :=
  let up := min 1000 (level + (profileOf s c).recoveryStep)
  s.setResolver c { s.resolver c with foldback := if up = 1000 then none else some up, floorMarks := 0 }

/-- R117 to R119, R121 part 2: the Foldback Controller's work at a mark, with the cut it calls for (R112). -/
def foldbackWork (c : Channel) (s : State) : State :=
  if (s.chan c).state = .off then s
  else if (s.resolver c).activeSet ≠ [] then cut c (foldbackStep c s)
  else match (s.resolver c).foldback with
    | some level => recoveryStep c level s
    | none => s

/-! ## The work of a mark (R121) -/

/-- R112: with MUTE released the drive output is set to the resolved level. -/
def raise (c : Channel) (s : State) : State :=
  if (s.chan c).mute then s else s.setResolver c { s.resolver c with drive := (s.resolver c).resolved }

/-- R102: the engine is held by the channel and its ramp is complete. -/
def completionFound (c : Channel) (s : State) : Bool := holdsEngine s c && (s.resolver c).rampComplete

/-- R102: the completion test at an event that changed another entry. -/
def completionTest (c : Channel) (s : State) : State :=
  if completionFound c s then tellCompletion c s else s

/-- R121: the five parts of the work at a mark, in order. -/
def markWork (c : Channel) (s : State) : State :=
  let due := stepDue c s
  let s := if due then rampStep c s else s
  let s := foldbackWork c s
  let complete := completionFound c s
  let s := completionTest c s
  let s := raise c s
  if due && (profileOf s c).isLow && !complete then reportStep c s else s

/-- FRAME_MARK (R121): the Drive Resolver takes a delivered mark, real or synthetic. -/
def execFrameMark (c : Channel) (s : State) : Host.Outcome State Fault Refusal :=
  match (s.link c).marks with
  | 0 => .next s
  | n + 1 => .next (markWork c (s.setLink c { s.link c with marks := n }))

/-! ## The other entries -/

/-- R112, R114, R115: an entry other than RAMP is changed; the drive is cut if it must be, and while the engine
is held by the channel the change makes the completion test (R102). A raise makes it too, and completes a ramp that
already stands at or above another entry (DESIGN CHOICE, log 36). -/
def changeEntry (c : Channel) (r : DriveResolver) (s : State) : State :=
  if r = s.resolver c then s else completionTest c (cut c (s.setResolver c r))

/-- R114: SET_TARGET's work. -/
def setTarget (a : Arguments) (s : State) : State × Reply :=
  match index 4 a.word1 with
  | none => (s, ⟨.badArgument, 0, 0⟩)
  | some c =>
    if 1000 < a.word2 then (s, ⟨.badArgument, 0, 0⟩)
    else if (s.chan c).profile = none then (s, ⟨.noProfile, 0, 0⟩)
    else (changeEntry c { s.resolver c with target := some a.word2 } s, ⟨.ok, 0, 0⟩)

/-- R115: the ceiling of a profile for a count of active positions. -/
def ceilingFor (p : Profile) (n : Nat) : Nat := p.ceiling.toList.getD n 0

/-- POSITION_COUNT (R115): the Drive Resolver takes the next count sent. -/
def execPositionCount (c : Channel) (s : State) : Host.Outcome State Fault Refusal :=
  match (s.link c).counts with
  | [] => .next s
  | n :: rest =>
    let s := s.setLink c { s.link c with counts := rest }
    match (s.chan c).profile with
    | none => .next s
    | some p => .next (changeEntry c { s.resolver c with positions := some (ceilingFor p n) } s)

/-! ## The foldback active set (R116) -/

/-- FOLDBACK_JOIN (R116): the next delivery of the Evaluator is a join; its index is added to the set. -/
def execFoldbackJoin (c : Channel) (s : State) : Host.Outcome State Fault Refusal :=
  match (s.link c).foldback with
  | .join e :: rest =>
    let s := s.setLink c { s.link c with foldback := rest }
    let r := s.resolver c
    .next (s.setResolver c { r with activeSet := if r.activeSet.contains e then r.activeSet else r.activeSet ++ [e] })
  | .leave _ :: _ | [] => .next s

/-- FOLDBACK_LEAVE (R116): the next delivery of the Evaluator is a leave; its index is removed from the set. -/
def execFoldbackLeave (c : Channel) (s : State) : Host.Outcome State Fault Refusal :=
  match (s.link c).foldback with
  | .leave e :: rest =>
    let s := s.setLink c { s.link c with foldback := rest }
    let r := s.resolver c
    .next (s.setResolver c { r with activeSet := r.activeSet.filter (fun d => d != e) })
  | .join _ :: _ | [] => .next s

end Sys2Proof.Machine
end

