-- ==== Sys2Proof/Machine/Channels.lean ====
section
/-! DEFINITION. The Channel Controllers (chapter 3): strikes, holdoff, lockout actions, the interlock, and the
requests that bring a channel on air or take it off. -/

namespace Sys2Proof.Machine

/-! ## Leaving a state -/

/-- R49, R112: MUTE is asserted and the drive output goes to 0 at the same event. -/
def silence (c : Channel) (s : State) : State :=
  (s.setChan c { s.chan c with mute := true }).setResolver c { s.resolver c with drive := 0 }

/-- R59, R69: out of the live states and the queue: MUTE asserted, RAMP entry removed, out of the queue, engine
released. -/
def leaveAir (c : Channel) (s : State) : State := releaseEngine c (leaveQueue c (dropRamp c (silence c s)))

/-- R63: the holdoff timer is abandoned and the extended flag cleared. -/
def stopHoldoff (c : Channel) (s : State) : State :=
  s.setChan c { s.chan c with holdoff := none, extended := false }

/-- The departures of R69, which R68 and R71 share: each undoes what the channel's state held. -/
def depart (c : Channel) (s : State) : State := endConfirmation c (stopHoldoff c (leaveAir c s))

/-! ## Strikes (R58 to R62) -/

/-- The cause of a strike (section 3.4). -/
inductive Cause where
  | arcLine (l : ArcLine)
  | condition (e : EntryIx) (capture : Bool)
  | foldbackExhausted
  deriving DecidableEq, Repr

/-- R60: a live strike of this cause triggers a capture. -/
def Cause.triggers : Cause → Bool
  | .arcLine _ => true
  | .condition _ capture => capture
  | .foldbackExhausted => true

/-- R59: the cause fields of a record. -/
def withCause (cause : Cause) (r : Record) : Record :=
  match cause with
  | .arcLine l => { r with line := some l }
  | .condition e _ => { r with condition := some e }
  | .foldbackExhausted => r

/-- R59, step 4, and R78: LOCKOUT at the lockout threshold, HOLDOFF with the timer started below it. -/
def strikeVerdict (c : Channel) (s : State) : State :=
  if (s.strike c).times.length = (profileOf s c).lockoutThreshold then setState c .lockout s
  else s.setChan c { s.chan c with
    state := .holdoff, holdoff := some (later s.now (profileOf s c).holdoffTime), extended := false }

/-- R59: a live strike. The record waits for the Capture Unit where the cause triggers a capture (R60). -/
def liveStrike (c : Channel) (cause : Cause) (after : Option Stamp) (s : State) : State :=
  let s := strikeVerdict c (appendStrike c (prune c (leaveAir c s)))
  offerGrant (sendRecord (.channel c) after cause.triggers (withCause cause (channelRecord c .strike s)) s)

/-- R61, R62: a muted strike is recorded. -/
def mutedStrike (c : Channel) (cause : Cause) (after : Option Stamp) (s : State) : State :=
  sendChannel c after (withCause cause (channelRecord c .mutedStrike s)) s

/-- R58: a strike is taken according to the channel's state. -/
def takeStrike (c : Channel) (cause : Cause) (after : Option Stamp) (s : State) : State :=
  match (s.chan c).state with
  | .ramping | .paused | .on => liveStrike c cause after s
  | .holdoff =>
    mutedStrike c cause after (s.setChan c { s.chan c with
      holdoff := some (later s.now (profileOf s c).holdoffTime), extended := false })
  | .queued | .confirmWait => mutedStrike c cause after s
  | .off | .lockout | .interlocked => s

/-- STRIKE (R58): the Channel Controller takes the strike that is next on the link. -/
def execStrike (c : Channel) (link : StrikeLink) (s : State) : Host.Outcome State Fault Refusal :=
  match link, (s.link c).fromScanner, (s.link c).fromEvaluator, (s.link c).exhausted with
  | .scanner, ⟨.strike l, sent⟩ :: rest, _, _ =>
    .next (takeStrike c (.arcLine l) (some ⟨.scanner, sent⟩) (s.setLink c { s.link c with fromScanner := rest }))
  | .evaluator, _, ⟨.strike e capture, sent⟩ :: rest, _ =>
    .next (takeStrike c (.condition e capture) (some ⟨.evaluator, sent⟩)
      (s.setLink c { s.link c with fromEvaluator := rest }))
  | .foldback, _, _, n + 1 =>
    .next (takeStrike c .foldbackExhausted none (s.setLink c { s.link c with exhausted := n }))
  | _, _, _, _ => .next s

/-! ## Holdoff (R63 to R66) -/

/-- R65: some cause still holds the channel. -/
def causeHolds (c : Channel) (s : State) : Bool := (arcBearing c s).isSome || (entryBearing .strike c s).isSome

/-- R64: the holdoff ends and Strike Accounting gives its verdict. -/
def endHoldoff (c : Channel) (after : Option Stamp) (s : State) : State :=
  verdict c (s.chan c).extended after (stopHoldoff c s)

/-- R65: the holdoff is held past its expiry. -/
def extendHoldoff (c : Channel) (s : State) : State :=
  let s := s.setChan c { s.chan c with holdoff := none, extended := true }
  sendChannel c none { channelRecord c .channelChanged s with
    extended := true, line := arcBearing c s, condition := entryBearing .strike c s } s

/-- HOLDOFF_EXPIRY (R65): the running timer reaches its expiry with the channel in HOLDOFF. -/
def execHoldoffExpiry (c : Channel) (s : State) : Host.Outcome State Fault Refusal :=
  match (s.chan c).holdoff with
  | none => .next s
  | some finish =>
    if reached s.now finish ∧ (s.chan c).state = .holdoff then
      if causeHolds c s then .next (extendHoldoff c s) else .next (endHoldoff c none s)
    else .next s

/-- R66: a clearing makes an extended channel ask again; it has no other effect. -/
def askAgain (c : Channel) (after : Option Stamp) (s : State) : State :=
  if (s.chan c).state = .holdoff ∧ (s.chan c).extended ∧ causeHolds c s = false then endHoldoff c after s else s

/-- CONDITION_CLEARED_EVENT (R66): the Evaluator's next delivery is a condition cleared event. -/
def execConditionClearedEvent (c : Channel) (s : State) : Host.Outcome State Fault Refusal :=
  match (s.link c).fromEvaluator with
  | ⟨.conditionCleared _, sent⟩ :: rest =>
    .next (askAgain c (some ⟨.evaluator, sent⟩) (s.setLink c { s.link c with fromEvaluator := rest }))
  | ⟨.strike _ _, _⟩ :: _ | ⟨.lockout _ _, _⟩ :: _ | [] => .next s

/-- ARC_CLEARED (R66): the Input Scanner's next delivery is an arc cleared event. -/
def execArcCleared (c : Channel) (s : State) : Host.Outcome State Fault Refusal :=
  match (s.link c).fromScanner with
  | ⟨.arcCleared _, sent⟩ :: rest =>
    .next (askAgain c (some ⟨.scanner, sent⟩) (s.setLink c { s.link c with fromScanner := rest }))
  | ⟨.strike _, _⟩ :: _ | ⟨.opened, _⟩ :: _ | ⟨.closed, _⟩ :: _ | [] => .next s

/-! ## Lockout actions (R68) -/

/-- R68: a lockout takes the channel to LOCKOUT from every state other than OFF and LOCKOUT. -/
def takeLockout (c : Channel) (e : EntryIx) (capture : Bool) (after : Option Stamp) (s : State) : State :=
  match (s.chan c).state with
  | .off | .lockout => s
  | .queued | .ramping | .paused | .on | .holdoff | .confirmWait | .interlocked =>
    let awaits := (s.chan c).state.live && capture
    let withdrawn := (s.strike c).pending
    let s := setState c .lockout (depart c s)
    offerGrant (sendRecord (.channel c) after awaits
      { channelRecord c .lockout s with condition := some e, withdrawn := withdrawn } s)

/-- LOCKOUT_ACTION (R68): the Evaluator's next delivery is a lockout. -/
def execLockoutAction (c : Channel) (s : State) : Host.Outcome State Fault Refusal :=
  match (s.link c).fromEvaluator with
  | ⟨.lockout e capture, sent⟩ :: rest =>
    .next (takeLockout c e capture (some ⟨.evaluator, sent⟩) (s.setLink c { s.link c with fromEvaluator := rest }))
  | ⟨.strike _ _, _⟩ :: _ | ⟨.conditionCleared _, _⟩ :: _ | [] => .next s

/-! ## The site interlock (R69, R70) -/

/-- R69: an opening takes every channel but those in OFF, LOCKOUT and INTERLOCKED to INTERLOCKED. -/
def takeOpened (c : Channel) (after : Option Stamp) (s : State) : State :=
  match (s.chan c).state with
  | .off | .lockout | .interlocked => s
  | .queued | .ramping | .paused | .on | .holdoff | .confirmWait =>
    let withdrawn := (s.strike c).pending
    let s := setState c .interlocked (depart c s)
    offerGrant (sendChannel c after { channelRecord c .channelChanged s with withdrawn := withdrawn } s)

/-- INTERLOCK_OPENED_EVENT (R69): the Input Scanner's next delivery is an interlock opened event. -/
def execInterlockOpenedEvent (c : Channel) (s : State) : Host.Outcome State Fault Refusal :=
  match (s.link c).fromScanner with
  | ⟨.opened, sent⟩ :: rest =>
    .next (takeOpened c (some ⟨.scanner, sent⟩) (s.setLink c { s.link c with fromScanner := rest }))
  | ⟨.strike _, _⟩ :: _ | ⟨.arcCleared _, _⟩ :: _ | ⟨.closed, _⟩ :: _ | [] => .next s

/-- R70: a closure takes an INTERLOCKED channel to QUEUED or CONFIRM_WAIT. -/
def takeClosed (c : Channel) (after : Option Stamp) (s : State) : State :=
  if (s.chan c).state = .interlocked then verdict c false after s else s

/-- INTERLOCK_CLOSED_EVENT (R70): the Input Scanner's next delivery is an interlock closed event. -/
def execInterlockClosedEvent (c : Channel) (s : State) : Host.Outcome State Fault Refusal :=
  match (s.link c).fromScanner with
  | ⟨.closed, sent⟩ :: rest =>
    .next (takeClosed c (some ⟨.scanner, sent⟩) (s.setLink c { s.link c with fromScanner := rest }))
  | ⟨.strike _, _⟩ :: _ | ⟨.arcCleared _, _⟩ :: _ | ⟨.opened, _⟩ :: _ | [] => .next s

/-! ## Requests -/

/-- R53: the first check of CHANNEL_ON that fails, of those after the arguments. -/
def channelOnRefusal (c : Channel) (s : State) : Option ResultCode :=
  if s.evaluator.configured = false then some .notConfigured
  else if (s.chan c).profile = none then some .noProfile
  else if (s.chan c).state ≠ .off then some .wrongState
  else if s.scanner.interlockClosed = false then some .interlocked
  else if (entryBearing .strike c s).isSome ∨ (entryBearing .lockout c s).isSome then some .stillActive
  else none

/-- R54: an accepted CHANNEL_ON. -/
def takeOn (c : Channel) (target : Nat) (s : State) : State :=
  let s := s.setResolver c { s.resolver c with target := some target }
  offerGrant (recordChange c none (joinTail c (setState c .queued s)))

/-- R53, R54: CHANNEL_ON's work. -/
def channelOn (a : Arguments) (s : State) : State × Reply :=
  match index 4 a.word1 with
  | none => (s, ⟨.badArgument, 0, 0⟩)
  | some c =>
    if 1000 < a.word2 then (s, ⟨.badArgument, 0, 0⟩)
    else match channelOnRefusal c s with
      | some code => (s, ⟨code, 0, 0⟩)
      | none => (takeOn c a.word2 s, ⟨.ok, 0, 0⟩)

/-- R72: a channel enters OFF and its recovery state is cleared. -/
def enterOff (c : Channel) (s : State) : State :=
  let s := s.setStrike c { s.strike c with times := [] }
  let s := s.setResolver c { s.resolver c with foldback := none, ramp := none, floorMarks := 0 }
  setState c .off (stopHoldoff c s)

/-- R71: CHANNEL_OFF from a state other than OFF and LOCKOUT. -/
def takeOff (c : Channel) (s : State) : State :=
  let withdrawn := (s.strike c).pending
  let s := enterOff c (depart c s)
  offerGrant (sendChannel c none { channelRecord c .channelChanged s with withdrawn := withdrawn } s)

/-- R71: CHANNEL_OFF's work. -/
def channelOff (a : Arguments) (s : State) : State × Reply :=
  match index 4 a.word1 with
  | none => (s, ⟨.badArgument, 0, 0⟩)
  | some c =>
    match (s.chan c).state with
    | .off => (s, ⟨.ok, 0, 0⟩)
    | .lockout => (s, ⟨.wrongState, 0, 0⟩)
    | .queued | .ramping | .paused | .on | .holdoff | .confirmWait | .interlocked => (takeOff c s, ⟨.ok, 0, 0⟩)

/-- R90: RELEASE_LOCKOUT's work. -/
def releaseLockout (a : Arguments) (s : State) : State × Reply :=
  match index 4 a.word1 with
  | none => (s, ⟨.badArgument, 0, 0⟩)
  | some c =>
    if (s.chan c).state ≠ .lockout then (s, ⟨.wrongState, 0, 0⟩)
    else if (entryBearing .lockout c s).isSome then (s, ⟨.stillActive, 0, 0⟩)
    else (recordChange c none (enterOff c s), ⟨.ok, 0, 0⟩)

end Sys2Proof.Machine
end

