-- ==== Sys2Proof/Machine/Conditions.lean ====
section
/-! DEFINITION. The Condition Evaluator (chapter 2): evaluation, entry states, actions, CLEAR_CONDITION and the
load. -/

namespace Sys2Proof.Machine

/-! ## Evaluation (R21 to R24) -/

/-- A point's latest value, by the number a field holds (R4). -/
def latestOf (sc : Scanner) (point : Nat) : Nat :=
  match index 96 point with
  | some q => look sc.latest q
  | none => 0

/-- R23: reflected over forward in per mille, 0 below the floor. -/
def ratio (reflected forward floor : Nat) : Nat :=
  if floor ≤ forward then min 65535 (reflected * 1000 / forward) else 0

/-- R21 to R24: the compared quantity of an arrival of `p`, once the latest and previous values are written. -/
def quantity (sc : Scanner) (f : ConditionFields) (p : Point) : Nat :=
  match compareOf f.compare with
  | some .ratioAbove => ratio (look sc.latest p) (latestOf sc f.pointB) f.band
  | some .stepAbove => look sc.latest p - look sc.previous p
  | some .above | some .below | some .outside | none => look sc.latest p

/-- R21 to R24: the side of a compared quantity; a count on a bound of OUTSIDE is on neither side (log 33). -/
def sideOf (f : ConditionFields) (v : Nat) : Side :=
  match compareOf f.compare with
  | some .above | some .ratioAbove | some .stepAbove =>
    if f.level1 < v then .set else if v < f.level2 then .clear else .neither
  | some .below => if v < f.level1 then .set else if f.level2 < v then .clear else .neither
  | some .outside =>
    if v < f.level1 ∨ f.level2 < v then .set
    else if f.level1 + f.band ≤ v ∧ v + f.band ≤ f.level2 ∧ v ≠ f.level1 ∧ v ≠ f.level2 then .clear
    else .neither
  | none => .neither

/-! ## Entry states (R25 to R28) -/

/-- What a move of an entry sends. -/
inductive Claim where
  | unchanged
  | asserted
  | withdrawn
  deriving DecidableEq, Repr

/-- The entry in a state, with a count and the mark unset (R27). -/
def LiveEntry.at (e : LiveEntry) (st : EntryState) (count : Nat) : LiveEntry :=
  { e with state := st, count := count, clearSeen := false }

/-- R25, R26, R28: an arrival of the side that counts; at the limit the entry goes on to `full`. -/
def LiveEntry.countUp (e : LiveEntry) (sofar limit : Nat) (counting full : EntryState) (claim : Claim) :
    LiveEntry × Claim :=
  if limit ≤ sofar + 1 then (e.at full 0, claim) else (e.at counting (sofar + 1), .unchanged)

/-- R25 to R28: an entry takes an arrival on a side. -/
def LiveEntry.take (e : LiveEntry) (side : Side) : LiveEntry × Claim :=
  match e.state, side with
  | .disabled, _ => (e, .unchanged)
  | .normal, .set => e.countUp 0 e.fields.setCount .arming .active .asserted
  | .normal, .clear | .normal, .neither => (e, .unchanged)
  | .arming, .set => e.countUp e.count e.fields.setCount .arming .active .asserted
  | .arming, .clear | .arming, .neither => (e.at .normal 0, .unchanged)
  | .active, .set => ({ e with clearSeen := false }, .unchanged)
  | .active, .clear =>
    if e.fields.latch = 1 then ({ e with clearSeen := true }, .unchanged)
    else e.countUp 0 e.fields.clearCount .clearing .normal .withdrawn
  | .active, .neither => (e, .unchanged)
  | .clearing, .set => (e.at .active 0, .unchanged)
  | .clearing, .clear => e.countUp e.count e.fields.clearCount .clearing .normal .withdrawn
  | .clearing, .neither => (e, .unchanged)

/-! ## Actions (R30 to R35) -/

/-- R30: the channel of a one-channel mask. -/
def scopeChannel (f : ConditionFields) : Option Channel :=
  if actionOf f.action = some .positionTrip then none
  else match channelsOf f.scope with
    | [c] => some c
    | _ => none

/-- R30: the position of a POSITION_TRIP entry. -/
def scopePosition (f : ConditionFields) : Option PositionIx :=
  if actionOf f.action = some .positionTrip then index 24 f.scope else none

/-- R30, R31: a CONDITION_SET or CONDITION_CLEARED record. -/
def conditionRecord (kind : RecordKind) (i : EntryIx) (f : ConditionFields) (value : Option Nat) (replaced : Bool)
    (s : State) : Record :=
  { time := s.now, kind := kind, channel := scopeChannel f, position := scopePosition f, condition := some i
    value := value, replaced := replaced }

/-- R32 to R35: the deliveries of an asserted action. -/
def assertedDeliveries (i : EntryIx) (f : ConditionFields) (s : State) : State :=
  match actionOf f.action with
  | some .foldback => forEach (channelsOf f.scope) (fun c => deliverFoldback c (.join i)) s
  | some .strike => forEach (channelsOf f.scope) (fun c => deliverEvaluator c (.strike i (f.capture == 1))) s
  | some .lockout => forEach (channelsOf f.scope) (fun c => deliverEvaluator c (.lockout i (f.capture == 1))) s
  | some .positionTrip =>
    match index 24 f.scope with
    | some p => deliverTrip p i s
    | none => s
  | some .note | none => s

/-- R32 to R35: the deliveries of a withdrawn action. -/
def withdrawnDeliveries (i : EntryIx) (f : ConditionFields) (s : State) : State :=
  match actionOf f.action with
  | some .foldback => forEach (channelsOf f.scope) (fun c => deliverFoldback c (.leave i)) s
  | some .strike => forEach (channelsOf f.scope) (fun c => deliverEvaluator c (.conditionCleared i)) s
  | some .lockout | some .positionTrip | some .note | none => s

/-- R30: an action is asserted: the record first, and then the deliveries. -/
def assertAction (after : Option Stamp) (i : EntryIx) (f : ConditionFields) (value : Nat) (s : State) : State :=
  assertedDeliveries i f
    (sendRecord .evaluator after false (conditionRecord .conditionSet i f (some value) false s) s)

/-- R31: an action is withdrawn: the record first, and then the deliveries. -/
def withdrawAction (after : Option Stamp) (i : EntryIx) (f : ConditionFields) (value : Option Nat) (replaced : Bool)
    (s : State) : State :=
  withdrawnDeliveries i f
    (sendRecord .evaluator after false (conditionRecord .conditionCleared i f value replaced s) s)

/-- What an entry's move sends. -/
def sendClaim (after : Option Stamp) (claim : Claim) (i : EntryIx) (f : ConditionFields) (value : Nat) (s : State) :
    State :=
  match claim with
  | .unchanged => s
  | .asserted => assertAction after i f value s
  | .withdrawn => withdrawAction after i f (some value) false s

/-- R20: an entry that is enabled and names the point as its point A. -/
def watches (p : Point) (e : LiveEntry) : Bool := e.fields.enable == 1 && e.fields.pointA == p.val

/-- R20: an entry takes an arrival of `p` if it watches it. -/
def evaluateEntry (p : Point) (after : Option Stamp) (i : EntryIx) (s : State) : State :=
  let e := s.entry i
  if watches p e then
    let v := quantity s.scanner e.fields p
    let moved := e.take (sideOf e.fields v)
    sendClaim after moved.2 i e.fields v (s.setEntry i moved.1)
  else s

/-- R20: every entry takes the arrival, in the order given. The arrival is a delivery of the Input Scanner (R3), so
R165 has the scanner's records sent before it numbered ahead of what the entries send. -/
def evaluate (p : Point) (order : List EntryIx) (s : State) : State :=
  forEach (inOrder order) (evaluateEntry p (some ⟨.scanner, s.journal.sent⟩)) s

/-! ## CLEAR_CONDITION (R36) -/

/-- R36: CLEAR_CONDITION's work. -/
def clearCondition (a : Arguments) (s : State) : State × Reply :=
  match index 96 a.word1 with
  | none => (s, ⟨.badArgument, 0, 0⟩)
  | some i =>
    let e := s.entry i
    match e.state with
    | .active =>
      if e.fields.latch = 1 ∧ e.clearSeen then
        (withdrawAction none i e.fields none false (s.setEntry i (e.at .normal 0)), ⟨.ok, 0, 0⟩)
      else (s, ⟨.stillActive, 0, 0⟩)
    | .disabled | .normal | .arming | .clearing => (s, ⟨.wrongState, 0, 0⟩)

/-! ## The load (R40 to R45) -/

/-- R40: a load begins. -/
def beginLoad (k : SlotIx) (s : State) : State := s.setEvaluator { s.evaluator with load := some ⟨k, [], none⟩ }

/-- R40: the drafts not yet read, up to `upTo` of them in all, are read in index order, and the settings after
the last. -/
def Load.readTo (m : Memory) (upTo : Nat) (l : Load) : Load :=
  { l with
    drafts := l.drafts ++ ((List.finRange 96).drop l.drafts.length |>.take (upTo - l.drafts.length)).map
      (readCondition m)
    settings := if 97 ≤ upTo then some (l.settings.getD (readSettings m)) else l.settings }

/-- R40: a load in progress reads on. -/
def readDrafts (upTo : Nat) (s : State) : State :=
  match s.evaluator.load with
  | none => s
  | some l => s.setEvaluator { s.evaluator with load := some (l.readTo s.mem upTo) }

/-- R43: the first failing place among the entries, counted from `i`. -/
def firstBadEntry : Nat → List ConditionFields → Option (Nat × Nat)
  | _, [] => none
  | i, f :: rest =>
    match checkCondition f with
    | some field => some (i, field)
    | none => firstBadEntry (i + 1) rest

/-- R43: the first failing place of a load. -/
def firstBadPlace (drafts : List ConditionFields) (settings : SiteSettings) : Option (Nat × Nat) :=
  match firstBadEntry 0 drafts with
  | some place => some place
  | none => (checkSettings settings).map (fun field => (96, field))

/-- R44, R45: one entry at the switch. -/
def switchEntry (i : EntryIx) (f : ConditionFields) (s : State) : State :=
  let e := s.entry i
  if f = e.fields then s
  else
    let s := if e.inForce then withdrawAction none i e.fields none true s else s
    s.setEntry i ⟨f, if f.enable = 1 then .normal else .disabled, 0, false⟩

/-- R9: an asserted line at the switch, for one channel. -/
def switchArc (old new : SiteSettings) (l : ArcLine) (c : Channel) (s : State) : State :=
  if covers new l c && !covers old l c then deliverScanner c (.strike l) s
  else if covers old l c && !covers new l c then deliverScanner c (.arcCleared l) s
  else s

/-- R9: the arc lines at the switch, in an order the manual leaves open. -/
def switchArcs (old new : SiteSettings) (lineOrder : List ArcLine) (s : State) : State :=
  forEach (inOrder lineOrder)
    (fun l s => if look s.scanner.arcAsserted l then forEach allChannels (switchArc old new l) s else s) s

/-- R44: the switch. -/
def switchTables (drafts : List ConditionFields) (settings : SiteSettings) (lineOrder : List ArcLine) (s : State) :
    State :=
  let old := s.evaluator.settings
  let s := forEach ((List.finRange 96).zip drafts) (fun x => switchEntry x.1 x.2) s
  let s := s.setEvaluator { s.evaluator with settings := settings, configured := true }
  switchArcs old settings lineOrder s

/-- R43, R44: a load that has read every draft ends. -/
def endLoad (l : Load) (lineOrder : List ArcLine) (s : State) : State × Reply :=
  let s := s.setEvaluator { s.evaluator with load := none }
  let settings := l.settings.getD SiteSettings.blank
  match firstBadPlace l.drafts settings with
  | some place => (s, ⟨.tableError, place.1, place.2⟩)
  | none => (switchTables l.drafts settings lineOrder s, ⟨.ok, 0, 0⟩)

end Sys2Proof.Machine
end

