-- ==== Sys2Proof/Machine/Positions.lean ====
section
/-! DEFINITION. The Position Monitor (chapter 7): presence, identity, service, trips, the re-check; and
LOAD_PROFILE, which calls for it. -/

namespace Sys2Proof.Machine

/-! ## Changes of a position -/

/-- R130: a position goes to a state, its BIAS line on exactly in ACTIVE. -/
def moveTo (p : PositionIx) (st : PositionState) (s : State) : State :=
  s.setPosition p { s.position p with state := st, bias := st == .active }

/-- R130: the count of active positions is sent to the channel's Drive Resolver. -/
def sendCount (c : Channel) (s : State) : State := deliverCount c (activeCount s c) s

/-- R138: a POSITION_CHANGED record with the position's state as it stands. -/
def recordPosition (p : PositionIx) (after : Option Stamp) (condition : Option EntryIx) (value : Option Nat)
    (s : State) : State :=
  sendRecord .positions after false
    { time := s.now, kind := .positionChanged, channel := some (channelOf p), position := some p
      condition := condition, value := value, newState := .position (s.position p).state } s

/-- R130: the count is sent at an event that takes the position into or out of ACTIVE. -/
def moveCounted (p : PositionIx) (st : PositionState) (s : State) : State :=
  let before := activeCount s (channelOf p)
  let s := moveTo p st s
  if activeCount s (channelOf p) = before then s else sendCount (channelOf p) s

/-- R129: the identity is accepted by the profile. -/
def accepted (profile : Option Profile) (identity : Byte) : Bool :=
  match profile with
  | some f => identity.toNat == f.identity
  | none => false

/-! ## Presence and identification (R126 to R128) -/

/-- R128: the module is lost. -/
def loseModule (p : PositionIx) (s : State) : State :=
  let s := s.setPosition p { s.position p with presence := false, read := none, identity := 0xFF }
  recordPosition p none none none (moveCounted p .empty s)

/-- R126: a qualified change of the presence line is taken according to the position's state. -/
def takePresence (p : PositionIx) (active : Bool) (s : State) : State :=
  let r := s.position p
  match active, r.state with
  | true, .empty => s.setPosition p { r with presence := true, presenceTimer := some (later s.now Config.presenceMs) }
  | false, .empty => s.setPosition p { r with presence := false, presenceTimer := none }
  | true, _ => s.setPosition p { r with presence := true }
  | false, _ => loseModule p s

/-- PRESENCE_CHANGE (R126): a presence line has held a new level for 1 ms. -/
def execPresenceChange (p : PositionIx) (active : Bool) (spell : Nat) (s : State) : Host.Outcome State Fault Refusal :=
  if running s ∧ Config.presenceQualifyNs ≤ spell ∧ (s.position p).presence ≠ active then
    .next (takePresence p active s)
  else .next s

/-- R126: the identity read starts. -/
def startRead (p : PositionIx) (s : State) : State :=
  moveTo p .identifying (s.setPosition p { s.position p with
    identity := 0xFF, presenceTimer := none, read := some (later s.now Config.identityReadMs) })

/-- PRESENCE_TIMER_END (R126): the presence timer ends with the position EMPTY. -/
def execPresenceTimerEnd (p : PositionIx) (s : State) : Host.Outcome State Fault Refusal :=
  match (s.position p).presenceTimer with
  | none => .next s
  | some finish =>
    if reached s.now finish ∧ (s.position p).state = .empty then .next (startRead p s) else .next s

/-- R127: where an identified module goes. -/
def identifiedState (profile : Option Profile) (identity : Byte) : PositionState :=
  if profile.isSome && !accepted profile identity then .refused else .disabled

/-- R127: an identity read ends. -/
def endRead (p : PositionIx) (code : Byte) (s : State) : State :=
  let s := s.setPosition p { s.position p with identity := code, read := none }
  let s := moveTo p (identifiedState (s.chan (channelOf p)).profile code) s
  recordPosition p none none (some code.toNat) s

/-- IDENTITY_READ_END (R127): a read in flight ends; a module that gives no code is recorded as 0xFF. -/
def execIdentityReadEnd (p : PositionIx) (code : Option Byte) (s : State) : Host.Outcome State Fault Refusal :=
  match (s.position p).read with
  | none => .next s
  | some finish =>
    if reached s.now finish ∧ (s.position p).state = .identifying then .next (endRead p (code.getD 0xFF) s)
    else .next s

/-! ## In and out of service (R131, R132) -/

/-- R131: the first check of ENABLE_POSITION that fails, of those after the argument. -/
def enableRefusal (p : PositionIx) (s : State) : Option ResultCode :=
  match (s.chan (channelOf p)).profile with
  | none => some .noProfile
  | some f =>
    if f.installed.testBit (p.val % 6) = false then some .notInstalled
    else if tripBearing p s then some .stillActive
    else match (s.position p).state with
      | .disabled | .tripped => none
      | .empty | .identifying | .refused | .active => some .wrongState

/-- R131: ENABLE_POSITION's work. -/
def enablePosition (a : Arguments) (s : State) : State × Reply :=
  match index 24 a.word1 with
  | none => (s, ⟨.badArgument, 0, 0⟩)
  | some p =>
    match enableRefusal p s with
    | some code => (s, ⟨code, 0, 0⟩)
    | none => (recordPosition p none none none (moveCounted p .active s), ⟨.ok, 0, 0⟩)

/-- R132: DISABLE_POSITION's work. -/
def disablePosition (a : Arguments) (s : State) : State × Reply :=
  match index 24 a.word1 with
  | none => (s, ⟨.badArgument, 0, 0⟩)
  | some p =>
    match (s.position p).state with
    | .active | .tripped => (recordPosition p none none none (moveCounted p .disabled s), ⟨.ok, 0, 0⟩)
    | .empty | .identifying | .refused | .disabled => (s, ⟨.wrongState, 0, 0⟩)

/-! ## Trips (R133) -/

/-- R133: a trip is taken according to the position's state. -/
def takeTrip (p : PositionIx) (e : EntryIx) (after : Option Stamp) (s : State) : State :=
  match (s.position p).state with
  | .active => recordPosition p after (some e) none (moveCounted p .tripped s)
  | .empty | .identifying | .refused | .disabled | .tripped => recordPosition p after (some e) none s

/-- The trip is that of the entry for the position. -/
def isTrip (p : PositionIx) (e : EntryIx) (d : TripDelivery) : Bool := d.position == p && d.entry == e

/-- POSITION_TRIP (R133): a delivered trip is taken. -/
def execPositionTrip (p : PositionIx) (e : EntryIx) (s : State) : Host.Outcome State Fault Refusal :=
  match s.trips.find? (isTrip p e) with
  | none => .next s
  | some d => .next (takeTrip p e (some ⟨.evaluator, d.sent⟩) (s.setTrips (s.trips.eraseP (isTrip p e))))

/-! ## The re-check and LOAD_PROFILE (R50 to R52, R136, R137) -/

/-- R137: where a position goes at the re-check. -/
def recheckedState (st : PositionState) (ok installed : Bool) : PositionState :=
  match st, ok, installed with
  | .disabled, false, _ | .active, false, _ | .tripped, false, _ => .refused
  | .active, true, false | .tripped, true, false => .disabled
  | .refused, true, _ => .disabled
  | _, _, _ => st

/-- R137: one position at the re-check. -/
def recheckPosition (c : Channel) (f : Profile) (k : Fin 6) (s : State) : State :=
  let p := positionOf c k
  let r := s.position p
  let st := recheckedState r.state (accepted (some f) r.identity) (f.installs k)
  if st = r.state then s else recordPosition p none none none (moveTo p st s)

/-- R137: the re-check of a channel's six positions, slot by slot, and the count. -/
def recheck (c : Channel) (f : Profile) (s : State) : State :=
  sendCount c (forEach (List.finRange 6) (recheckPosition c f) s)

/-- R52: a profile that passes becomes the channel's loaded profile. -/
def installProfile (c : Channel) (f : Profile) (s : State) : State :=
  let s := recheck c f (s.setChan c { s.chan c with profile := some f })
  s.setResolver c { s.resolver c with target := some 0, positions := some (ceilingFor f (activeCount s c)) }

/-- R50: LOAD_PROFILE's work. -/
def loadProfile (a : Arguments) (s : State) : State × Reply :=
  match index 4 a.word1 with
  | none => (s, ⟨.badArgument, 0, 0⟩)
  | some c =>
    if (s.chan c).state ≠ .off then (s, ⟨.channelActive, 0, 0⟩)
    else
      let f := readProfile s.mem c
      match checkProfile f with
      | some field => (s, ⟨.tableError, c.val, field⟩)
      | none => (installProfile c f s, ⟨.ok, 0, 0⟩)

end Sys2Proof.Machine
end

