-- ==== Sys2Proof/Machine/Sensing.lean ====
section
/-! DEFINITION. The Input Scanner and the Frame Mark Monitors (chapter 1): arrivals, arc lines, the interlock loop,
and frame marks. -/

namespace Sys2Proof.Machine

/-! ## Arrivals (R2, R3, R14) -/

/-- R2: an input below the converter's range converts to 0, and one above it to 4095. -/
def saturate (input : Int) : Nat := min 4095 input.toNat

/-- R14: the captured points in capture order: AF, AR, CR-A, CR-B, CR-C, CR-D. -/
def capturedIndex (p : Point) : Option CapturedIx :=
  match p.val with
  | 84 => some 0
  | 85 => some 1
  | 73 => some 2
  | 76 => some 3
  | 79 => some 4
  | 82 => some 5
  | _ => none

/-- R3: the point's values at an arrival; the first arrival writes both. -/
def takeCount (p : Point) (count : Nat) (s : State) : State :=
  let sc := s.scanner
  s.setScanner { sc with
    previous := put sc.previous p (if look sc.arrived p then look sc.latest p else count)
    latest := put sc.latest p count
    arrived := put sc.arrived p true }

/-- R14: a ring takes a value. -/
def Ring.push (r : Ring) (value : Nat) : Ring := ⟨put r.slots r.index value, r.index + 1⟩

/-- R14: the point's ring takes its new value. -/
def pushRing (j : CapturedIx) (value : Nat) (s : State) : State :=
  s.setScanner { s.scanner with rings := put s.scanner.rings j ((look s.scanner.rings j).push value) }

/-- R3, R14, R144: an arrival of a captured point goes to its ring and to the Capture Unit. -/
def captureArrival (p : Point) (count : Nat) (s : State) : State :=
  match capturedIndex p with
  | none => s
  | some j => fillCapture j count (pushRing j count s)

/-- SAMPLE_ARRIVAL (R2, R3): the count is written, and the arrival is handed on. -/
def execSampleArrival (point : Point) (input : Int) (order : List EntryIx) (s : State) :
    Host.Outcome State Fault Refusal :=
  if running s then
    let count := saturate input
    .next (captureArrival point count (evaluate point order (takeCount point count s)))
  else .next s

/-! ## Arc lines (R6 to R8) -/

/-- The channels of an enabled line's scope (R7). -/
def armedScope (st : SiteSettings) (l : ArcLine) : List Channel := allChannels.filter (covers st l)

/-- A line's state is changed. -/
def setArc (l : ArcLine) (asserted : Bool) (s : State) : State :=
  s.setScanner { s.scanner with arcAsserted := put s.scanner.arcAsserted l asserted }

/-- ARC_LINE_ASSERTION (R6, R7): a deasserted line driven active for 1 µs is asserted, and an enabled one strikes. -/
def execArcLineAssertion (line : ArcLine) (spell : Nat) (s : State) : Host.Outcome State Fault Refusal :=
  if running s ∧ Config.qualifyNs ≤ spell ∧ look s.scanner.arcAsserted line = false then
    .next (forEach (armedScope s.evaluator.settings line) (fun c => deliverScanner c (.strike line))
      (setArc line true s))
  else .next s

/-- ARC_LINE_DEASSERTION (R6, R8): an asserted line inactive for 1 µs is deasserted, and an enabled one delivers
arc cleared events. -/
def execArcLineDeassertion (line : ArcLine) (spell : Nat) (s : State) : Host.Outcome State Fault Refusal :=
  if running s ∧ Config.qualifyNs ≤ spell ∧ look s.scanner.arcAsserted line = true then
    .next (forEach (armedScope s.evaluator.settings line) (fun c => deliverScanner c (.arcCleared line))
      (setArc line false s))
  else .next s

/-! ## The site interlock loop (R11, R12) -/

/-- R11, R12: the interlock state changes, its events are delivered, and its record is sent. -/
def changeInterlock (closed : Bool) (s : State) : State :=
  let s := s.setScanner { s.scanner with interlockClosed := closed, closureTimer := none }
  let s := forEach allChannels (fun c => deliverScanner c (if closed then .closed else .opened)) s
  sendRecord .scanner none false
    { time := s.now, kind := if closed then .interlockClosed else .interlockOpened } s

/-- INTERLOCK_LOOP_OPENING (R11, R12): with the interlock closed, an opening of 1 µs opens it; with the interlock
open, any opening abandons the closure timer. -/
def execInterlockLoopOpening (spell : Nat) (s : State) : Host.Outcome State Fault Refusal :=
  if running s = false then .next s
  else if s.scanner.interlockClosed then
    if Config.qualifyNs ≤ spell then .next (changeInterlock false s) else .next s
  else .next (s.setScanner { s.scanner with closureTimer := none })

/-- INTERLOCK_LOOP_CLOSING (R12): with the interlock open, the closure timer starts at 200 ms. -/
def execInterlockLoopClosing (s : State) : Host.Outcome State Fault Refusal :=
  if running s ∧ s.scanner.interlockClosed = false then
    .next (s.setScanner { s.scanner with closureTimer := some (later s.now Config.closureMs) })
  else .next s

/-- CLOSURE_TIMER_EXPIRY (R12): the timer runs out with the loop still closed. -/
def execClosureTimerExpiry (s : State) : Host.Outcome State Fault Refusal :=
  match s.scanner.closureTimer with
  | none => .next s
  | some finish =>
    if reached s.now finish ∧ s.scanner.interlockClosed = false then .next (changeInterlock true s) else .next s

/-! ## Frame marks (R16 to R18) -/

/-- R16, R18: the frame-mark timeout in force. -/
def markTimeout (c : Channel) (s : State) : Nat :=
  match (s.chan c).profile with
  | some f => f.markTimeout
  | none => Config.markTimeoutMs

/-- R16, R17: the mark state changes, with a record of the change. -/
def setPresent (c : Channel) (present : Bool) (s : State) : State :=
  if (s.monitor c).present = present then s
  else sendRecord (.monitor c) none false
    { time := s.now, kind := if present then .frameMarkBack else .frameMarkLost, channel := some c }
    (s.setMonitor c { s.monitor c with present := present })

/-- R16, R17: a mark is delivered, and a new interval starts. -/
def passMark (c : Channel) (s : State) : State :=
  let s := deliverMark c s
  s.setMonitor c { s.monitor c with lastMark := s.now, interval := markTimeout c s }

/-- R16: the count of real marks rises by one. -/
def countMark (c : Channel) (s : State) : State :=
  s.setMonitor c { s.monitor c with realMarks := (s.monitor c).realMarks + 1 }

/-- REAL_MARK (R16): a pulse of at least 1 µs is taken as a mark. -/
def execRealMark (c : Channel) (spell : Nat) (s : State) : Host.Outcome State Fault Refusal :=
  if running s ∧ Config.qualifyNs ≤ spell then .next (passMark c (setPresent c true (countMark c s))) else .next s

/-- MARK_INTERVAL_EXPIRY (R17): the running interval runs out, and a synthetic mark is delivered. -/
def execMarkIntervalExpiry (c : Channel) (s : State) : Host.Outcome State Fault Refusal :=
  if running s ∧ (s.monitor c).interval ≤ age s.now (s.monitor c).lastMark then
    .next (setPresent c false (passMark c s))
  else .next s

end Sys2Proof.Machine
end

