-- ==== Sys2Proof/Machine/Requests.lean ====
section
/-! DEFINITION. The Request Handler and the Bus Interface (chapter 9): registers, slot writes, sweeps, visits, and
the requests. -/

namespace Sys2Proof.Machine

/-! ## Initialization's writes (R161) -/

/-- R161: one area that initialization writes. -/
def writeArea (area : InitArea) (s : State) : State :=
  match area with
  | .slots => forEach (List.finRange 16) (fun k s => s.write (slotAddress k) (numBytes 2 0)) s
  | .release => s.write Config.releaseBase (numBytes 4 0)
  | .journal => writeJournalHeader (s.setMem (zeroRange s.mem Config.journalBase 2048))
  | .confirmations => forEach allChannels writeConfirmation s
  | .captures => forEach (List.finRange 4) writeCaptureHeader (s.setMem (zeroRange s.mem Config.captureDataBase 6144))
  | .identity => s.write 0 (Config.identityFields.flatMap (numBytes 2) ++ numBytes 42 0)

/-- R161: while the card initializes, an area not yet written is written. -/
def initializeArea (area : InitArea) (s : State) : State :=
  if s.phase = .initializing ∧ area ∉ s.initialized then
    { writeArea area s with initialized := area :: s.initialized }
  else s

/-! ## Writes of the site controller -/

/-- R150: one item of memory traffic. -/
def takeTraffic (t : Traffic) (s : State) : State :=
  match t with
  | .write a b => s.write a.toNat [b]
  | .initArea area => initializeArea area s
  | .readDrafts upTo => readDrafts upTo s

/-- SLOT_STATE_WRITE (R152, R158): after the memory traffic before it, the site controller writes a state word;
REQ_DONE follows the words. -/
def execSlotStateWrite (before : List Traffic) (slot : SlotIx) (value : Word) (s : State) :
    Host.Outcome State Fault Refusal :=
  if s.phase = .unpowered then .next s
  else .next ((forEach before takeTraffic s).write (slotAddress slot) (numBytes 2 value.toNat))

/-- R171: where a write of the release word goes, its size, and its value. -/
def releaseTarget : ReleaseWrite → Nat × Nat × Nat
  | .whole v => (Config.releaseBase, 4, v.toNat)
  | .low v => (Config.releaseBase, 2, v.toNat)
  | .high v => (Config.releaseBase + 2, 2, v.toNat)

/-- JOURNAL_RELEASE_WRITE (R167, R171): the site controller writes the release word, or half of it. -/
def execJournalReleaseWrite (w : ReleaseWrite) (s : State) : Host.Outcome State Fault Refusal :=
  if s.phase = .unpowered then .next s
  else .next (s.write (releaseTarget w).1 (numBytes (releaseTarget w).2.1 (releaseTarget w).2.2))

/-- IRQ_ENABLE_WRITE (R157): the four enables are set from the four enable bits. -/
def execIrqEnableWrite (value : Word) (s : State) : Host.Outcome State Fault Refusal :=
  if running s then .next { s with irqEnable := value.setWidth 4 } else .next s

/-- REGISTER_WRITE_IGNORED (R157, R159): a write to STATUS or IDENT, or to RESET_CTL with bit 0 clear. -/
def execRegisterWriteIgnored (_reg : QuietRegister) (_value : Word) (s : State) : Host.Outcome State Fault Refusal :=
  .next s

/-! ## Sweeps (R154 to R156) -/

/-- ATTN (R154): ignored before READY; starts a sweep when idle; sets sweep again while sweeping. -/
def execAttn (_value : Word) (s : State) : Host.Outcome State Fault Refusal :=
  match s.phase, s.handler.sweep with
  | .ready, none => .next (s.setHandler { s.handler with sweep := some ⟨0, 0⟩ })
  | .ready, some _ => .next (s.setHandler { s.handler with again := true })
  | .unpowered, _ | .held _, _ | .initializing, _ => .next s

/-- R156: the end of a sweep that completed `completed` requests. -/
def endSweep (completed : Nat) (s : State) : State :=
  s.setHandler {
    sweep := if s.handler.again then some ⟨0, 0⟩ else none
    again := false
    ack := if 1 ≤ completed then !s.handler.ack else s.handler.ack }

/-- SWEEP_END (R156): slot 15 has been visited. -/
def execSweepEnd (s : State) : Host.Outcome State Fault Refusal :=
  match s.handler.sweep with
  | some ⟨slot, completed⟩ => if slot = 16 then .next (endSweep completed s) else .next s
  | none => .next s

/-- R155: the slot the sweep is about to visit; none while it is idle, held by a load, or past slot 15. -/
def visiting (s : State) : Option SlotIx :=
  match s.handler.sweep, s.evaluator.load with
  | some w, none => index 16 w.slot
  | _, _ => none

/-- R155: the sweep moves to the next slot, with `more` requests completed. -/
def moveOn (more : Nat) (s : State) : State :=
  match s.handler.sweep with
  | some w => s.setHandler { s.handler with sweep := some ⟨w.slot + 1, w.completed + more⟩ }
  | none => s

/-- R152: a slot's state word is written. -/
def writeSlotState (k : SlotIx) (value : Nat) (s : State) : State := s.write (slotAddress k) (numBytes 2 value)

/-- R152, R155: the result is written, then DONE, and the sweep moves on. -/
def completeSlot (k : SlotIx) (r : Reply) (s : State) : State :=
  let s := s.write (slotAddress k + 0x0C) (numBytes 2 r.code.code ++ numBytes 2 r.detail1 ++ numBytes 2 r.detail2)
  moveOn 1 (writeSlotState k 3 s)

/-- R152, R153: a request other than LOAD_CONDITIONS, taken and completed as one event. -/
def serve (k : SlotIx) (work : Arguments → State → State × Reply) (s : State) : State :=
  let a := argumentsOf s.mem k
  let r := work a (writeSlotState k 2 s)
  completeSlot k r.2 r.1

/-- R40: LOAD_CONDITIONS is taken, and the load begins. -/
def takeLoad (k : SlotIx) (s : State) : State := beginLoad k (writeSlotState k 2 s)

/-- R153: a kind field that names no request is completed with BAD_KIND. -/
def refuseKind (_a : Arguments) (s : State) : State × Reply := (s, ⟨.badKind, 0, 0⟩)

/-- R153: the work of a request of a kind, other than LOAD_CONDITIONS. -/
def workOf : Option RequestKind → Arguments → State → State × Reply
  | some .loadProfile => loadProfile
  | some .channelOn => channelOn
  | some .channelOff => channelOff
  | some .setTarget => setTarget
  | some .confirmRestrike => confirmRestrike
  | some .releaseLockout => releaseLockout
  | some .clearCondition => clearCondition
  | some .enablePosition => enablePosition
  | some .disablePosition => disablePosition
  | some .holdCapture => holdCapture
  | some .releaseCapture => releaseCapture
  | some .loadConditions | none => refuseKind

/-- R152, R155: the slot about to be visited is POSTED. -/
def posted (s : State) (k : SlotIx) : Bool := slotWord s.mem k 0 == 1

/-- R153: the kind in the slot about to be visited. -/
def slotKind (s : State) (k : SlotIx) : Option RequestKind := kindOf (slotWord s.mem k 0x02)

/-- R155: the slot about to be visited, when it is POSTED with this kind. -/
def offered (kind : Option RequestKind) (s : State) : Option SlotIx :=
  match visiting s with
  | some k => if posted s k = true ∧ slotKind s k = kind then some k else none
  | none => none

/-- R155: the visit that takes a request of the kind, if that is what the sweep is about to visit (log 1, log 5). -/
def visitFor (kind : RequestKind) (work : Arguments → State → State × Reply) (s : State) : State :=
  match offered (some kind) s with
  | some k => serve k work s
  | none => s

/-- SLOT_VISIT (R155): the sweep visits the next slot and takes it if it is POSTED. -/
def execSlotVisit (s : State) : Host.Outcome State Fault Refusal :=
  match visiting s with
  | none => .next s
  | some k =>
    if posted s k then
      match slotKind s k with
      | some .loadConditions => .next (takeLoad k s)
      | kind => .next (serve k (workOf kind) s)
    else .next (moveOn 0 s)

/-! ## The requests -/

/-- BAD_KIND (R153). -/
def execBadKind (s : State) : Host.Outcome State Fault Refusal :=
  match offered none s with
  | some k => .next (serve k refuseKind s)
  | none => .next s

/-- LOAD_CONDITIONS (R40): the request is taken and the load begins; the sweep is held. -/
def execLoadConditions (s : State) : Host.Outcome State Fault Refusal :=
  match offered (some .loadConditions) s with
  | some k => .next (takeLoad k s)
  | none => .next s

/-- LOAD_END (R40, R43, R44): what is not yet read is read, the load ends, and the result is written. -/
def execLoadEnd (lineOrder : List ArcLine) (s : State) : Host.Outcome State Fault Refusal :=
  match s.evaluator.load with
  | none => .next s
  | some l =>
    let r := endLoad (l.readTo s.mem 97) lineOrder s
    .next (completeSlot l.slot r.2 r.1)

/-- CLEAR_CONDITION (R36). -/
def execClearCondition (s : State) : Host.Outcome State Fault Refusal := .next (visitFor .clearCondition clearCondition s)

/-- LOAD_PROFILE (R50). -/
def execLoadProfile (s : State) : Host.Outcome State Fault Refusal := .next (visitFor .loadProfile loadProfile s)

/-- CHANNEL_ON (R53). -/
def execChannelOn (s : State) : Host.Outcome State Fault Refusal := .next (visitFor .channelOn channelOn s)

/-- CHANNEL_OFF (R71). -/
def execChannelOff (s : State) : Host.Outcome State Fault Refusal := .next (visitFor .channelOff channelOff s)

/-- SET_TARGET (R114). -/
def execSetTarget (s : State) : Host.Outcome State Fault Refusal := .next (visitFor .setTarget setTarget s)

/-- CONFIRM_RESTRIKE (R83). -/
def execConfirmRestrike (s : State) : Host.Outcome State Fault Refusal :=
  .next (visitFor .confirmRestrike confirmRestrike s)

/-- RELEASE_LOCKOUT (R90). -/
def execReleaseLockout (s : State) : Host.Outcome State Fault Refusal :=
  .next (visitFor .releaseLockout releaseLockout s)

/-- ENABLE_POSITION (R131). -/
def execEnablePosition (s : State) : Host.Outcome State Fault Refusal :=
  .next (visitFor .enablePosition enablePosition s)

/-- DISABLE_POSITION (R132). -/
def execDisablePosition (s : State) : Host.Outcome State Fault Refusal :=
  .next (visitFor .disablePosition disablePosition s)

/-- HOLD_CAPTURE (R147). -/
def execHoldCapture (s : State) : Host.Outcome State Fault Refusal := .next (visitFor .holdCapture holdCapture s)

/-- RELEASE_CAPTURE (R148). -/
def execReleaseCapture (s : State) : Host.Outcome State Fault Refusal :=
  .next (visitFor .releaseCapture releaseCapture s)

end Sys2Proof.Machine
end

