-- ==== Sys2Proof/Machine/Reset.lean ====
section
/-! DEFINITION. Resets, initialization and the loss of supply (section 9.6, R74). -/

namespace Sys2Proof.Machine

/-! ## The state of the blocks after a reset (R160) -/

/-- R10, R13: the Input Scanner takes the lines as the card leaves reset. -/
def scannerFrom (pins : Pins) : Scanner :=
  { Scanner.reset with arcAsserted := pins.arcs, interlockClosed := pins.loopClosed }

/-- R125: a position takes its presence line as the card leaves reset, and starts its timer if that is active. -/
def positionFrom (present : Bool) : PositionRecord :=
  { PositionRecord.reset with
    presence := present, presenceTimer := if present then some (later 0 Config.presenceMs) else none }

/-- R160: every block in its state after reset, memory and the queue of commands apart. -/
def resetBlocks (s : State) : State := { State.reset with mem := s.mem, pending := s.pending }

/-- R160, R161: the card leaves reset with the line levels `pins`: memory is zeroed at a power-on reset, the status
block in any case, and initialization begins. -/
def leaveReset (powerOn : Bool) (pins : Pins) (s : State) : State :=
  { resetBlocks s with
    mem := if powerOn then [] else zeroRange s.mem Config.statusBase Config.statusSize
    scanner := scannerFrom pins
    positions := Vector.ofFn (fun p => positionFrom (look pins.presence p)) }

/-- R159, R160: the card is in reset. Common memory is zeroed only as the card leaves a power-on reset; until then it
holds the bytes it held before (DESIGN CHOICE, log 37). -/
def enterReset (powerOn : Bool) (s : State) : State := { resetBlocks s with phase := .held powerOn }

/-- POWER_ON_RESET (R159, R160): supply comes up; the card stays in reset while the backplane line is held. -/
def execPowerOnReset (lineHeld : Bool) (pins : Pins) (s : State) : Host.Outcome State Fault Refusal :=
  if lineHeld then .next (enterReset true s) else .next (leaveReset true pins s)

/-- R159: a card held in reset stays in it; any other card with supply takes the reset. -/
def takeControllerReset (cause : ResetCause) (pins : Pins) (s : State) : State :=
  match s.phase, cause with
  | .unpowered, _ | .held _, _ => s
  | .initializing, .backplaneLine | .ready, .backplaneLine => enterReset false s
  | .initializing, .resetCtlWrite _ | .ready, .resetCtlWrite _ => leaveReset false pins s

/-- CONTROLLER_RESET (R159): a write of RESET_CTL with bit 0 set, or the backplane line becoming held. -/
def execControllerReset (cause : ResetCause) (pins : Pins) (s : State) : Host.Outcome State Fault Refusal :=
  match cause with
  | .resetCtlWrite value => if value.getLsbD 0 then .next (takeControllerReset cause pins s) else .next s
  | .backplaneLine => .next (takeControllerReset cause pins s)

/-- BACKPLANE_RESET_RELEASE (R159): the held line is released, and the card leaves reset. -/
def execBackplaneResetRelease (pins : Pins) (s : State) : Host.Outcome State Fault Refusal :=
  match s.phase with
  | .held powerOn => .next (leaveReset powerOn pins s)
  | .unpowered | .initializing | .ready => .next s

/-! ## Initialization (R161, R162) -/

/-- R161, R162: initialization's last writes: every area not yet written, and the slots and the release word as
they stand at READY. -/
def finishAreas (s : State) : State :=
  let s := forEach [.journal, .confirmations, .captures, .identity] initializeArea s
  writeArea .release (writeArea .slots s)

/-- INITIALIZATION_END (R162, R164): READY is set, the first rewrite is due, and the held records are numbered. -/
def execInitializationEnd (s : State) : Host.Outcome State Fault Refusal :=
  match s.phase with
  | .initializing =>
    let s := finishAreas s
    .next (numberHeldRecords ({ s with phase := .ready }.setStatus { s.status with due := s.now }))
  | .unpowered | .held _ | .ready => .next s

/-! ## The loss of supply -/

/-- SUPPLY_LOSS (R74): the card is without supply until the next power-on reset; nothing of it is kept (log 16). -/
def execSupplyLoss (s : State) : Host.Outcome State Fault Refusal :=
  .next { State.reset with phase := .unpowered, pending := s.pending }

end Sys2Proof.Machine
end

