-- ==== Sys2Proof/Machine/Dispatch.lean ====
section
/-! DEFINITION. One arm for each command: a direct call of its meaning. -/

namespace Sys2Proof.Machine

/-- The effect of a command on everything but the queue. -/
def exec (i : Instr) (s : State) : Host.Outcome State Fault Refusal :=
  match i with
  | .powerOnReset lineHeld pins => Sys2Proof.Machine.execPowerOnReset lineHeld pins s
  | .controllerReset cause pins => Sys2Proof.Machine.execControllerReset cause pins s
  | .initializationEnd => Sys2Proof.Machine.execInitializationEnd s
  | .attn value => Sys2Proof.Machine.execAttn value s
  | .irqEnableWrite value => Sys2Proof.Machine.execIrqEnableWrite value s
  | .registerWriteIgnored reg value => Sys2Proof.Machine.execRegisterWriteIgnored reg value s
  | .journalReleaseWrite w => Sys2Proof.Machine.execJournalReleaseWrite w s
  | .slotStateWrite before slot value => Sys2Proof.Machine.execSlotStateWrite before slot value s
  | .slotVisit => Sys2Proof.Machine.execSlotVisit s
  | .sweepEnd => Sys2Proof.Machine.execSweepEnd s
  | .badKind => Sys2Proof.Machine.execBadKind s
  | .loadConditions => Sys2Proof.Machine.execLoadConditions s
  | .loadEnd lineOrder => Sys2Proof.Machine.execLoadEnd lineOrder s
  | .clearCondition => Sys2Proof.Machine.execClearCondition s
  | .loadProfile => Sys2Proof.Machine.execLoadProfile s
  | .channelOn => Sys2Proof.Machine.execChannelOn s
  | .channelOff => Sys2Proof.Machine.execChannelOff s
  | .setTarget => Sys2Proof.Machine.execSetTarget s
  | .confirmRestrike => Sys2Proof.Machine.execConfirmRestrike s
  | .releaseLockout => Sys2Proof.Machine.execReleaseLockout s
  | .enablePosition => Sys2Proof.Machine.execEnablePosition s
  | .disablePosition => Sys2Proof.Machine.execDisablePosition s
  | .holdCapture => Sys2Proof.Machine.execHoldCapture s
  | .releaseCapture => Sys2Proof.Machine.execReleaseCapture s
  | .sampleArrival point input order => Sys2Proof.Machine.execSampleArrival point input order s
  | .arcLineAssertion line spell => Sys2Proof.Machine.execArcLineAssertion line spell s
  | .arcLineDeassertion line spell => Sys2Proof.Machine.execArcLineDeassertion line spell s
  | .interlockLoopOpening spell => Sys2Proof.Machine.execInterlockLoopOpening spell s
  | .interlockLoopClosing => Sys2Proof.Machine.execInterlockLoopClosing s
  | .closureTimerExpiry => Sys2Proof.Machine.execClosureTimerExpiry s
  | .realMark c spell => Sys2Proof.Machine.execRealMark c spell s
  | .markIntervalExpiry c => Sys2Proof.Machine.execMarkIntervalExpiry c s
  | .frameMark c => Sys2Proof.Machine.execFrameMark c s
  | .stepReport c => Sys2Proof.Machine.execStepReport c s
  | .grantTaken c => Sys2Proof.Machine.execGrantTaken c s
  | .rampCompletion c => Sys2Proof.Machine.execRampCompletion c s
  | .preemption c => Sys2Proof.Machine.execPreemption c s
  | .strike c link => Sys2Proof.Machine.execStrike c link s
  | .lockoutAction c => Sys2Proof.Machine.execLockoutAction c s
  | .conditionClearedEvent c => Sys2Proof.Machine.execConditionClearedEvent c s
  | .arcCleared c => Sys2Proof.Machine.execArcCleared c s
  | .holdoffExpiry c => Sys2Proof.Machine.execHoldoffExpiry c s
  | .confirmationExpiry c => Sys2Proof.Machine.execConfirmationExpiry c s
  | .interlockOpenedEvent c => Sys2Proof.Machine.execInterlockOpenedEvent c s
  | .interlockClosedEvent c => Sys2Proof.Machine.execInterlockClosedEvent c s
  | .timeCounterWrap => Sys2Proof.Machine.execTimeCounterWrap s
  | .foldbackJoin c => Sys2Proof.Machine.execFoldbackJoin c s
  | .foldbackLeave c => Sys2Proof.Machine.execFoldbackLeave c s
  | .positionCount c => Sys2Proof.Machine.execPositionCount c s
  | .presenceChange p active spell => Sys2Proof.Machine.execPresenceChange p active spell s
  | .presenceTimerEnd p => Sys2Proof.Machine.execPresenceTimerEnd p s
  | .identityReadEnd p code => Sys2Proof.Machine.execIdentityReadEnd p code s
  | .positionTrip p e => Sys2Proof.Machine.execPositionTrip p e s
  | .captureTrigger c => Sys2Proof.Machine.execCaptureTrigger c s
  | .journalRecord sender => Sys2Proof.Machine.execJournalRecord sender s
  | .statusRewrite fields => Sys2Proof.Machine.execStatusRewrite fields s
  | .statusRewriteEnd => Sys2Proof.Machine.execStatusRewriteEnd s
  | .timeCounterTick => Sys2Proof.Machine.execTimeCounterTick s
  | .backplaneResetRelease pins => Sys2Proof.Machine.execBackplaneResetRelease pins s
  | .supplyLoss => Sys2Proof.Machine.execSupplyLoss s

end Sys2Proof.Machine
end

