-- ==== Sys2Proof/Machine/Step.lean ====
section
/-! DEFINITION. One step of the card: it takes the command at the front of its queue. -/

namespace Sys2Proof.Machine

/-- The command at the front of the queue is taken with the rest of the queue; on an empty queue the card idles
(DESIGN CHOICE, log 2). -/
def step (s : State) : Host.Outcome State Fault Refusal :=
  match s.pending with
  | [] => .next s
  | c :: rest => exec c { s with pending := rest }

/-- The state with the command that a word spells at the front of its queue; no word spells one (log 23, log 24). -/
def State.withFetchWord (s : State) (nbits w : Nat) : State :=
  match Sys2Proof.decodeTableWord nbits w with
  | some c => { s with pending := c :: s.pending }
  | none => s

end Sys2Proof.Machine
end

