-- ==== Sys2Proof/Safety.lean ====
section
/-! DEFINITION. The laws that the manual says the card keeps, as properties of one state; and the words in which
statements say what a command does and what it leaves unchanged. -/

namespace Sys2Proof.Machine

/-! ## Common memory -/

/-- The memory has its canonical form (R150). -/
def MemoryLaw (s : State) : Prop := s.mem.wf = true

/-! ## Channels -/

/-- The channel is RAMPING or PAUSED. -/
def ChannelState.ramped : ChannelState → Bool
  | .ramping | .paused => true
  | .off | .queued | .on | .holdoff | .confirmWait | .lockout | .interlocked => false

/-- What holds of one channel: the table of section 3.1 and the laws of R49, R72, R75, R80, R94, R98, R110 and
R112. -/
structure ChannelLaw (s : State) (c : Channel) : Prop where
  /-- R49: MUTE is asserted exactly outside the live states -/
  muted : (s.chan c).mute = !(s.chan c).state.live
  /-- R49: and then the drive output is 0 -/
  silent : (s.chan c).mute = true → (s.resolver c).drive = 0
  /-- R112: the drive never exceeds the smallest level -/
  driven : (s.resolver c).drive ≤ (s.resolver c).resolved
  /-- R110: the RAMP entry is present exactly in RAMPING and PAUSED -/
  ramped : (s.resolver c).ramp.isSome = (s.chan c).state.ramped
  /-- R80: the record is PENDING exactly in CONFIRM_WAIT -/
  asked : (s.strike c).pending = true ↔ (s.chan c).state = .confirmWait
  /-- R86: the confirmation timer runs exactly while the record is PENDING -/
  timed : (s.strike c).timer.isSome = (s.strike c).pending
  /-- R94: the channel is in the queue exactly in QUEUED and PAUSED -/
  queued : c ∈ s.arbiter.high ++ s.arbiter.low ↔ (s.chan c).state.waiting = true
  /-- R98: the channel holds the engine exactly in RAMPING -/
  holds : s.arbiter.engine = .held c ↔ (s.chan c).state = .ramping
  /-- R63: the holdoff timer runs, and the extended flag is set, in HOLDOFF only -/
  atRest : (s.chan c).state ≠ .holdoff → (s.chan c).holdoff = none ∧ (s.chan c).extended = false
  /-- section 3.1: in HOLDOFF the timer runs exactly while the extended flag is clear -/
  waits : (s.chan c).state = .holdoff → (s.chan c).holdoff.isSome = !(s.chan c).extended
  /-- R71: a channel with no profile is OFF -/
  unprofiled : (s.chan c).profile = none → (s.chan c).state = .off
  /-- R51: a loaded profile has passed its check -/
  profiled : ∀ p, (s.chan c).profile = some p → checkProfile p = none
  /-- R110: with a profile loaded, TARGET and POSITIONS are present -/
  limited : (s.chan c).profile.isSome = true →
    (s.resolver c).target.isSome = true ∧ (s.resolver c).positions.isSome = true
  /-- R72: in OFF the recovery state is clear -/
  cleared : (s.chan c).state = .off →
    (s.strike c).times = [] ∧ (s.resolver c).foldback = none ∧ (s.resolver c).floorMarks = 0
  /-- R75: the strike list never holds more entries than the lockout threshold -/
  counted : ∀ p, (s.chan c).profile = some p → (s.strike c).times.length ≤ p.lockoutThreshold
  /-- R75: a channel that is not in LOCKOUT holds fewer -/
  spared : ∀ p, (s.chan c).profile = some p → (s.chan c).state ≠ .lockout →
    (s.strike c).times.length < p.lockoutThreshold
  /-- R110: the FOLDBACK entry lies between the floor and 1000 -/
  floored : ∀ p level, (s.chan c).profile = some p → (s.resolver c).foldback = some level →
    p.foldbackFloor ≤ level ∧ level ≤ 1000

/-- What holds of the Arbiter: no channel stands twice in the queue (R94), and a free engine has no channel
waiting (R97). -/
structure ArbiterLaw (s : State) : Prop where
  once : (s.arbiter.high ++ s.arbiter.low).Nodup
  granted : s.arbiter.engine = .free → s.arbiter.high ++ s.arbiter.low = []

/-- The laws of all four channels and the Arbiter. -/
def ChannelLaws (s : State) : Prop := (∀ c, ChannelLaw s c) ∧ ArbiterLaw s

/-! ## The site interlock (R69) -/

/-- An interlock event among the deliveries of the Input Scanner, in order: true for opened. -/
def interlockEvents (l : ChannelLinks) : List Bool :=
  l.fromScanner.filterMap (fun d => match d.event with
    | .opened => some true
    | .closed => some false
    | .strike _ | .arcCleared _ => none)

/-- R69: while the interlock is open, no closed event is the last on its way to a channel; and a channel with no
opened event on its way is in OFF, LOCKOUT or INTERLOCKED. -/
def InterlockLaw (s : State) : Prop :=
  s.scanner.interlockClosed = false → ∀ c : Channel,
    (interlockEvents (s.link c)).getLast? ≠ some false ∧
    (true ∉ interlockEvents (s.link c) →
      (s.chan c).state = .off ∨ (s.chan c).state = .lockout ∨ (s.chan c).state = .interlocked)

/-! ## Positions (R126, R130) -/

/-- What holds of one position. -/
structure PositionLaw (s : State) (p : PositionIx) : Prop where
  /-- R130: BIAS is on exactly in ACTIVE -/
  biased : (s.position p).bias = ((s.position p).state == .active)
  /-- R130: an ACTIVE position is present, accepted and installed -/
  inService : (s.position p).state = .active →
    (s.position p).presence = true ∧ ∃ f, (s.chan (channelOf p)).profile = some f
      ∧ (s.position p).identity.toNat = f.identity ∧ f.installed.testBit (p.val % 6) = true
  /-- R130: with a profile loaded, a DISABLED or TRIPPED position has an accepted identity -/
  fit : (s.position p).state = .disabled ∨ (s.position p).state = .tripped →
    ∀ f, (s.chan (channelOf p)).profile = some f → (s.position p).identity.toNat = f.identity
  /-- R128: a position that is not EMPTY has its module present -/
  seated : (s.position p).state ≠ .empty → (s.position p).presence = true
  /-- R126: the presence timer runs in EMPTY only, with the line qualified active -/
  qualifying : (s.position p).presenceTimer.isSome = true →
    (s.position p).state = .empty ∧ (s.position p).presence = true
  /-- R126: a read is in flight exactly in IDENTIFYING -/
  reading : (s.position p).read.isSome = true ↔ (s.position p).state = .identifying

/-- R115: with a profile loaded, the last count on its way is the count the position table holds, and with none on
its way the POSITIONS entry is the ceiling for it. -/
def CountLaw (s : State) (c : Channel) : Prop :=
  ∀ p, (s.chan c).profile = some p →
    match (s.link c).counts.getLast? with
    | some n => n = activeCount s c
    | none => (s.resolver c).positions = some (ceilingFor p (activeCount s c))

/-- The laws of all positions and their counts. -/
def PositionLaws (s : State) : Prop := (∀ p, PositionLaw s p) ∧ ∀ c, CountLaw s c

/-! ## Conditions -/

/-- What holds of one live entry (R19, R25 to R28, R41, R44). -/
structure EntryLaw (e : LiveEntry) : Prop where
  /-- R44: DISABLED exactly when not enabled -/
  enabled : e.state = .disabled ↔ e.fields.enable ≠ 1
  /-- R41: its fields have passed their checks -/
  checked : checkCondition e.fields = none
  /-- R27: the mark is set only in ACTIVE, and only for a latched entry -/
  marked : e.clearSeen = true → e.state = .active ∧ e.fields.latch = 1
  /-- section 2.1: the count is 0 outside ARMING and CLEARING -/
  uncounted : e.state ≠ .arming → e.state ≠ .clearing → e.count = 0
  /-- R25: an ARMING entry has not reached its set count -/
  arming : e.state = .arming → 1 ≤ e.count ∧ e.count < e.fields.setCount
  /-- R28: a CLEARING entry has not reached its clear count -/
  clearing : e.state = .clearing → 1 ≤ e.count ∧ e.count < e.fields.clearCount

/-- The law of all entries, and the checked site settings (R42). -/
def EntryLaws (s : State) : Prop := (∀ i, EntryLaw (s.entry i)) ∧ checkSettings s.evaluator.settings = none

/-- R116: the active set after a delivery. -/
def FoldbackDelivery.apply (set : List EntryIx) : FoldbackDelivery → List EntryIx
  | .join e => if set.contains e then set else set ++ [e]
  | .leave e => set.filter (fun d => d != e)

/-- R32: once every delivery on its way is taken, a channel's active set holds exactly the in-force FOLDBACK
entries whose scope includes the channel. -/
def FoldbackLaw (s : State) : Prop :=
  ∀ (c : Channel) (i : EntryIx),
    i ∈ (s.link c).foldback.foldl FoldbackDelivery.apply (s.resolver c).activeSet ↔
      bearsOn .foldback c (s.entry i) = true

/-! ## Captures (R140, R144, R147) -/

/-- What holds of the Capture Unit. -/
structure CaptureLaw (s : State) : Prop where
  /-- R140: at most one buffer is FILLING -/
  one : ∀ a b, (s.buffer a).state = .filling → (s.buffer b).state = .filling → a = b
  /-- R147: a READY or HELD buffer has its trigger sequence -/
  known : ∀ b, (s.buffer b).state = .ready ∨ (s.buffer b).state = .held → (s.buffer b).sequence ≠ 0
  /-- R144: a post count never passes 64 -/
  filled : ∀ j, look s.captures.postCounts j ≤ 64

/-! ## The status block (R168) -/

/-- R168: the update count is odd exactly while a rewrite is in progress. -/
def StatusLaw (s : State) : Prop := s.status.count.getLsbD 0 = s.status.copied.isSome

/-! ## Before READY (R48, R125, R154, R160) -/

/-- R160: in reset, while initializing and without supply, no sweep and no load runs, every channel is OFF with MUTE
asserted, drive 0 and no confirmation PENDING, and no position is ACTIVE or TRIPPED or has its BIAS on. -/
def RestLaw (s : State) : Prop :=
  s.phase ≠ .ready →
    s.handler.sweep = none ∧ s.evaluator.load = none
    ∧ (∀ c, (s.chan c).state = .off ∧ (s.chan c).mute = true ∧ (s.resolver c).drive = 0 ∧ (s.strike c).pending = false)
    ∧ ∀ p, (s.position p).state ≠ .active ∧ (s.position p).state ≠ .tripped ∧ (s.position p).bias = false

/-! ## What a command does and leaves unchanged -/

/-- The request in slot `k` that the sweep, with `n` requests completed, takes at its next visit (R155). -/
structure Offered (s : State) (k : SlotIx) (n kind w1 w2 w3 : Nat) : Prop where
  sweeping : s.handler.sweep = some ⟨k.val, n⟩
  unloaded : s.evaluator.load = none
  posted : slotWord s.mem k 0x00 = 1
  kind : slotWord s.mem k 0x02 = kind
  word1 : slotWord s.mem k 0x06 = w1
  word2 : slotWord s.mem k 0x08 = w2
  word3 : slotWord s.mem k 0x0A = w3

/-- The slot is DONE with the reply, and the sweep has moved on with one more request completed (R152, R155). -/
structure Answered (s t : State) (k : SlotIx) (n : Nat) (r : Reply) : Prop where
  done : slotWord t.mem k 0x00 = 3
  code : slotWord t.mem k 0x0C = r.code.code
  detail1 : slotWord t.mem k 0x0E = r.detail1
  detail2 : slotWord t.mem k 0x10 = r.detail2
  moved : t.handler = { s.handler with sweep := some ⟨k.val + 1, n + 1⟩ }

/-- The bytes of a slot that the card writes: the state word, the result code and the result detail (R152). -/
def slotBytes (k : SlotIx) (a : Nat) : Prop :=
  (slotAddress k ≤ a ∧ a < slotAddress k + 2) ∨ (slotAddress k + 0x0C ≤ a ∧ a < slotAddress k + 0x12)

/-- The bytes of a channel's confirmation record (section 11.4). -/
def confirmationBytes (c : Channel) (a : Nat) : Prop :=
  Config.confirmationBase + 16 * c.val ≤ a ∧ a < Config.confirmationBase + 16 * c.val + 16

/-- The bytes of a capture buffer's header (section 11.4). -/
def headerBytes (b : BufferIx) (a : Nat) : Prop :=
  Config.captureHeaderBase + 32 * b.val ≤ a ∧ a < Config.captureHeaderBase + 32 * b.val + 32

/-- Every byte reads as before but those at the addresses named. -/
def MemoryBut (written : Nat → Prop) (s t : State) : Prop := ∀ a, ¬ written a → readByte t.mem a = readByte s.mem a

/-- What each channel's blocks hold is as before, but for one channel. -/
def OtherChannels (c : Channel) (s t : State) : Prop :=
  ∀ d, d ≠ c → t.chan d = s.chan d ∧ t.strike d = s.strike d ∧ t.resolver d = s.resolver d
    ∧ t.monitor d = s.monitor d ∧ t.link d = s.link d

/-- One record has been sent, and nothing else has changed at the Journal Writer. -/
def Sent (s t : State) (sender : Sender) (after : Option Stamp) (awaits : Bool) (r : Record) : Prop :=
  t.journal = { s.journal with
    waiting := s.journal.waiting ++ [⟨s.journal.sent, sender, after, r, awaits⟩]
    sent := s.journal.sent + 1 }

/-- The waiting records of a run of records that one block sends under one stamp, the first with serial `first`. -/
def sentRecords (sender : Sender) (after : Option Stamp) (first : Nat) (rs : List Record) : List WaitingRecord :=
  (rs.zipIdx first).map (fun x => ⟨x.2, sender, after, x.1, false⟩)

/-- A run of records has been sent by one block, in order, and nothing else has changed at the Journal Writer. -/
def SentAll (s t : State) (sender : Sender) (after : Option Stamp) (rs : List Record) : Prop :=
  t.journal = { s.journal with
    waiting := s.journal.waiting ++ sentRecords sender after s.journal.sent rs
    sent := s.journal.sent + rs.length }

/-- R40: what a load that ends now has read, or reads now, as draft `i`. -/
def Load.draftAt (l : Load) (m : Memory) (i : EntryIx) : ConditionFields := l.drafts[i.val]?.getD (readCondition m i)

/-- R40: what a load that ends now has read, or reads now, as the site settings draft. -/
def Load.settingsAt (l : Load) (m : Memory) : SiteSettings := l.settings.getD (readSettings m)

/-- R45: the entries whose action the switch withdraws, in index order: those changed and in force. -/
def switchWithdraws (s : State) (l : Load) : List EntryIx :=
  (List.finRange 96).filter (fun i =>
    decide (l.draftAt s.mem i ≠ (s.entry i).fields) && (s.entry i).inForce)

/-- R97: from an engine state, the engine after the event: a free engine is granted to the head of the queue. -/
def grantFrom (engine : Engine) (high low : List Channel) : Engine :=
  match engine, high ++ low with
  | .free, c :: _ => .granted c
  | e, _ => e

/-- R99: the engine after the channel has left RAMPING. -/
def releasedBy (c : Channel) (engine : Engine) : Engine := if engine = .held c then .free else engine

/-- R95: the channels of a group without one. -/
def without (c : Channel) (l : List Channel) : List Channel := l.filter (fun d => d != c)

/-- R94: a channel at the tail of a group, if the group is its profile's. -/
def tailIf (member : Bool) (c : Channel) (l : List Channel) : List Channel := if member then l ++ [c] else l

/-- The command of a request kind; none stands for a kind field that names no request (R153). -/
def requestCommand : Option RequestKind → Instr
  | some .loadConditions => .loadConditions
  | some .loadProfile => .loadProfile
  | some .channelOn => .channelOn
  | some .channelOff => .channelOff
  | some .setTarget => .setTarget
  | some .confirmRestrike => .confirmRestrike
  | some .releaseLockout => .releaseLockout
  | some .clearCondition => .clearCondition
  | some .enablePosition => .enablePosition
  | some .disablePosition => .disablePosition
  | some .holdCapture => .holdCapture
  | some .releaseCapture => .releaseCapture
  | none => .badKind

/-- The strike that a Channel Controller takes next on a link: its cause, what R165 has numbered before its record,
and the deliveries left. -/
def nextStrike (s : State) (c : Channel) : StrikeLink → Option (Cause × Option Stamp × ChannelLinks)
  | .scanner =>
    match (s.link c).fromScanner with
    | ⟨.strike l, sent⟩ :: rest => some (.arcLine l, some ⟨.scanner, sent⟩, { s.link c with fromScanner := rest })
    | _ => none
  | .evaluator =>
    match (s.link c).fromEvaluator with
    | ⟨.strike e capture, sent⟩ :: rest =>
      some (.condition e capture, some ⟨.evaluator, sent⟩, { s.link c with fromEvaluator := rest })
    | _ => none
  | .foldback =>
    match (s.link c).exhausted with
    | n + 1 => some (.foldbackExhausted, none, { s.link c with exhausted := n })
    | 0 => none

/-! ## What an arrival does to the conditions (R20) -/

/-- What an entry does at an arrival of a point, the scanner holding the arrival's values: the entry after it, and
what its move sends. -/
def arrivalMove (sc : Scanner) (p : Point) (e : LiveEntry) : LiveEntry × Claim :=
  if e.fields.enable = 1 ∧ e.fields.pointA = p.val then e.take (sideOf e.fields (quantity sc e.fields p))
  else (e, .unchanged)

/-- The entries that an arrival asserts or withdraws, in the order in which they are taken. -/
def arrivalClaims (sc : Scanner) (p : Point) (order : List EntryIx) (s : State) : List EntryIx :=
  (inOrder order).filter (fun i => decide ((arrivalMove sc p (s.entry i)).2 ≠ .unchanged))

/-- R30, R31: the record of a claim. -/
def claimRecord (claim : Claim) (i : EntryIx) (f : ConditionFields) (value : Nat) (s : State) : Record :=
  conditionRecord (if claim = .asserted then .conditionSet else .conditionCleared) i f (some value) false s

/-- R32: what a claim delivers to a channel's Drive Resolver. -/
def claimFoldback (claim : Claim) (i : EntryIx) (f : ConditionFields) (c : Channel) : Option FoldbackDelivery :=
  if actionOf f.action = some .foldback ∧ f.scope.testBit c.val = true then
    match claim with
    | .unchanged => none
    | .asserted => some (.join i)
    | .withdrawn => some (.leave i)
  else none

/-- R33, R34: what a claim delivers to a channel's Channel Controller. -/
def claimEvent (claim : Claim) (i : EntryIx) (f : ConditionFields) (c : Channel) : Option EvaluatorEvent :=
  if f.scope.testBit c.val = true then
    match actionOf f.action, claim with
    | some .strike, .asserted => some (.strike i (f.capture == 1))
    | some .strike, .withdrawn => some (.conditionCleared i)
    | some .lockout, .asserted => some (.lockout i (f.capture == 1))
    | _, _ => none
  else none

/-- R35: what a claim delivers to the Position Monitor, `sent` records having been sent before it. -/
def claimTrip (claim : Claim) (i : EntryIx) (f : ConditionFields) (sent : Nat) : Option TripDelivery :=
  if actionOf f.action = some .positionTrip ∧ claim = .asserted then
    if h : f.scope < 24 then some ⟨⟨f.scope, h⟩, i, sent⟩ else none
  else none

/-! ## The verdict after a holdoff or a closure (R64, R70) -/

/-- R76: a channel's strike times within its window, measured now. -/
def recentStrikes (s : State) (c : Channel) (p : Profile) : List Time :=
  (s.strike c).times.filter (fun x => decide ((s.now - x).toNat ≤ p.strikeWindow * 1000))

/-- From `s`, the channel has had its verdict in `t`: it is in CONFIRM_WAIT with a fresh confirmation (R82), or in
QUEUED (R94), with its record sent. -/
structure Judged (s t : State) (c : Channel) (p : Profile) (extended : Bool) (after : Option Stamp) : Prop where
  /-- R79: the card asks -/
  asked : p.confirmThreshold ≠ 0 → p.confirmThreshold ≤ (recentStrikes s c p).length →
    (t.chan c).state = .confirmWait ∧ t.arbiter = s.arbiter
    ∧ t.strike c =
        { times := recentStrikes s c p, pending := true, number := (s.strike c).nextNumber
          count := (recentStrikes s c p).length, posted := s.now
          deadline := s.now + BitVec.ofNat 32 (p.confirmTimeout * 1000)
          nextNumber := if (s.strike c).nextNumber = 65535 then 1 else (s.strike c).nextNumber + 1
          timer := some (s.now + BitVec.ofNat 32 (p.confirmTimeout * 1000)) }
    ∧ MemoryBut (confirmationBytes c) s t
    ∧ readNum t.mem (Config.confirmationBase + 16 * c.val) 2 = 1
    ∧ readNum t.mem (Config.confirmationBase + 16 * c.val + 4) 2 = (s.strike c).nextNumber.toNat
    ∧ readNum t.mem (Config.confirmationBase + 16 * c.val + 8) 4 = s.now.toNat
    ∧ readNum t.mem (Config.confirmationBase + 16 * c.val + 12) 4 =
        (s.now + BitVec.ofNat 32 (p.confirmTimeout * 1000)).toNat
    ∧ Sent s t (.channel c) after false
        { time := s.now, kind := .confirmPosted, channel := some c, newState := .channel .confirmWait
          strikeCount := (recentStrikes s c p).length, extended := extended }
  /-- R79: the channel is queued -/
  queued : (p.confirmThreshold = 0 ∨ (recentStrikes s c p).length < p.confirmThreshold) →
    (t.chan c).state = .queued ∧ t.strike c = { s.strike c with times := recentStrikes s c p } ∧ t.mem = s.mem
    ∧ t.arbiter = { s.arbiter with
        high := tailIf (decide (p.group ≠ 1)) c s.arbiter.high
        low := tailIf (decide (p.group = 1)) c s.arbiter.low
        engine := grantFrom s.arbiter.engine (tailIf (decide (p.group ≠ 1)) c s.arbiter.high)
          (tailIf (decide (p.group = 1)) c s.arbiter.low) }
    ∧ Sent s t (.channel c) after false
        { time := s.now, kind := .channelChanged, channel := some c, newState := .channel .queued
          strikeCount := (recentStrikes s c p).length, extended := extended }

/-! ## What initialization writes (R161) -/

/-- The bytes of an area of R161. -/
def areaBytes (area : InitArea) (a : Nat) : Prop :=
  match area with
  | .slots => ∃ k, slotAddress k ≤ a ∧ a < slotAddress k + 2
  | .release => 0x00A0 ≤ a ∧ a < 0x00A4
  | .journal => (0x0080 ≤ a ∧ a < 0x00A0) ∨ (0x0600 ≤ a ∧ a < 0x0E00)
  | .confirmations => 0x00C0 ≤ a ∧ a < 0x0100
  | .captures => (0x0E00 ≤ a ∧ a < 0x0E80) ∨ (0x3000 ≤ a ∧ a < 0x4800)
  | .identity => a < 0x0040

/-- R161, sections 11.3 and 11.4: the memory holds an area as initialization writes it, from the state of the block
that owns it. -/
def AreaWritten (area : InitArea) (s : State) (m : Memory) : Prop :=
  match area with
  | .slots => ∀ k, slotWord m k 0 = 0
  | .release => releaseWord m = 0
  | .journal =>
    readNum m 0x0080 4 = s.journal.newest.toNat ∧ readNum m 0x0084 2 = s.journal.next.val
    ∧ ∀ a, (0x0086 ≤ a ∧ a < 0x00A0) ∨ (0x0600 ≤ a ∧ a < 0x0E00) → readByte m a = 0
  | .confirmations => ∀ c : Channel,
    readNum m (0x00C0 + 16 * c.val) 2 = flag (s.strike c).pending ∧ readNum m (0x00C0 + 16 * c.val + 2) 2 = c.val
    ∧ readNum m (0x00C0 + 16 * c.val + 4) 2 = (s.strike c).number.toNat
    ∧ readNum m (0x00C0 + 16 * c.val + 6) 2 = (s.strike c).count % 65536
    ∧ readNum m (0x00C0 + 16 * c.val + 8) 4 = (s.strike c).posted.toNat
    ∧ readNum m (0x00C0 + 16 * c.val + 12) 4 = (s.strike c).deadline.toNat
  | .captures =>
    (∀ b : BufferIx,
      readNum m (0x0E00 + 32 * b.val) 2 = (s.buffer b).state.code
      ∧ readNum m (0x0E00 + 32 * b.val + 2) 2 = (s.buffer b).mask.toNat
      ∧ readNum m (0x0E00 + 32 * b.val + 4) 4 = (s.buffer b).sequence.toNat
      ∧ readNum m (0x0E00 + 32 * b.val + 8) 4 = (s.buffer b).time.toNat
      ∧ ∀ a, 0x0E00 + 32 * b.val + 12 ≤ a → a < 0x0E00 + 32 * b.val + 32 → readByte m a = 0)
    ∧ ∀ a, 0x3000 ≤ a → a < 0x4800 → readByte m a = 0
  | .identity =>
    (List.range 11).map (fun k => readNum m (2 * k) 2) = [1, 4, 6, 96, 8, 96, 16, 64, 4, 128, 6]
    ∧ ∀ a, 22 ≤ a → a < 0x0040 → readByte m a = 0

/-! ## Records held through initialization (R161, R164) -/

/-- R161: the records that wait to be numbered at READY, in the order sent. -/
def heldRecords (s : State) : List WaitingRecord := s.journal.waiting.filter (fun w => !w.awaitsCapture)

/-- R164, step 1: the number that follows a sequence number. -/
def followingNumber (q : Seq) : Seq := if q = 4294967295 then 1 else q + 1

/-- R164: the sequence number after `n` more records. -/
def numberAfterRecords (q : Seq) : Nat → Seq
  | 0 => q
  | n + 1 => followingNumber (numberAfterRecords q n)

/-- R164: the journal slot `n` places after a slot. -/
def slotsOn (slot : Fin 64) (n : Nat) : Fin 64 := ⟨(slot.val + n) % 64, Nat.mod_lt _ (by decide)⟩

/-- R164, step 5: the record's number goes to the Capture Unit. -/
def StartsCapture (r : Record) : Prop :=
  (r.kind = .strike ∨ r.kind = .lockout) ∧ r.joined = false ∧ r.buffer.isSome = true

/-! ## The checks of drafts (R41, R42, R51) -/

/-- Of the fields numbered 1 to `last`, the result names the first that breaks its check, or none. -/
def FirstFailing (passes : Nat → Prop) (last : Nat) : Option Nat → Prop
  | none => ∀ n, 1 ≤ n → n ≤ last → passes n
  | some n => 1 ≤ n ∧ n ≤ last ∧ ¬ passes n ∧ ∀ m, 1 ≤ m → m < n → passes m

/-- R41: the check of a field of an entry that is enabled, by the codes of R170: compare 1 ABOVE, 2 BELOW, 3 OUTSIDE,
4 RATIO_ABOVE, 5 STEP_ABOVE; action 1 NOTE, 2 FOLDBACK, 3 STRIKE, 4 LOCKOUT, 5 POSITION_TRIP. -/
def ConditionFieldPasses (f : ConditionFields) : Nat → Prop
  | 1 => f.enable ≤ 1
  | 2 => 1 ≤ f.compare ∧ f.compare ≤ 5
  | 3 => f.pointA ≤ 95
  | 4 => f.compare = 4 → f.pointB ≤ 95
  | 5 => f.level1 ≤ if f.compare = 4 then 60000 else 4095
  | 6 => (f.level2 ≤ if f.compare = 4 then 60000 else 4095)
      ∧ (f.compare = 1 ∨ f.compare = 4 ∨ f.compare = 5 → f.level2 ≤ f.level1)
      ∧ (f.compare = 2 → f.level1 ≤ f.level2) ∧ (f.compare = 3 → f.level1 < f.level2)
  | 7 => (f.compare = 3 → 2 * f.band < f.level2 - f.level1) ∧ (f.compare = 4 → 1 ≤ f.band ∧ f.band ≤ 4095)
  | 8 => 1 ≤ f.setCount ∧ f.setCount ≤ 255
  | 9 => 1 ≤ f.clearCount ∧ f.clearCount ≤ 255
  | 10 => 1 ≤ f.action ∧ f.action ≤ 5
  | 11 => (f.action = 1 → f.scope ≤ 15) ∧ (f.action = 5 → f.scope ≤ 23)
      ∧ (f.action = 2 ∨ f.action = 3 ∨ f.action = 4 → 1 ≤ f.scope ∧ f.scope ≤ 15)
  | 12 => f.latch ≤ 1
  | 13 => f.capture ≤ 1
  | _ => True

/-- R42: the check of a field of the site settings draft. The arc line enable, field 1, accepts any lines. -/
def SettingsFieldPasses (st : SiteSettings) : Nat → Prop
  | 2 => ∀ l : ArcLine, (look st.arcScope l).toNat ≤ 15
  | 3 => st.preemptHold ≤ 255
  | 4 => st.captureEnable ≤ 1
  | 5 => st.capturePolicy ≤ 1
  | _ => True

/-- R51: the check of a field of a profile draft. -/
def ProfileFieldPasses (p : Profile) : Nat → Prop
  | 1 => p.installed ≤ 63
  | 2 => p.identity ≤ 0xFE
  | 3 => look p.ceiling 0 = 0
  | 4 => look p.ceiling 1 ≤ 1000 ∧ look p.ceiling 0 ≤ look p.ceiling 1
  | 5 => look p.ceiling 2 ≤ 1000 ∧ look p.ceiling 1 ≤ look p.ceiling 2
  | 6 => look p.ceiling 3 ≤ 1000 ∧ look p.ceiling 2 ≤ look p.ceiling 3
  | 7 => look p.ceiling 4 ≤ 1000 ∧ look p.ceiling 3 ≤ look p.ceiling 4
  | 8 => look p.ceiling 5 ≤ 1000 ∧ look p.ceiling 4 ≤ look p.ceiling 5
  | 9 => look p.ceiling 6 ≤ 1000 ∧ look p.ceiling 5 ≤ look p.ceiling 6
  | 10 => p.group ≤ 1
  | 11 => 1 ≤ p.rampStep ∧ p.rampStep ≤ 1000
  | 12 => 5 ≤ p.rampSpacing ∧ p.rampSpacing ≤ 500
  | 13 => 20 ≤ p.holdoffTime ∧ p.holdoffTime ≤ 5000
  | 14 => 1 ≤ p.strikeWindow ∧ p.strikeWindow ≤ 3600
  | 15 => p.confirmThreshold ≤ 7
  | 16 => 1 ≤ p.lockoutThreshold ∧ p.lockoutThreshold ≤ 8
      ∧ (p.confirmThreshold ≠ 0 → p.confirmThreshold < p.lockoutThreshold)
  | 17 => 5 ≤ p.confirmTimeout ∧ p.confirmTimeout ≤ 600
  | 18 => 1 ≤ p.foldbackStep ∧ p.foldbackStep ≤ 200
  | 19 => 1 ≤ p.recoveryStep ∧ p.recoveryStep ≤ 200
  | 20 => p.foldbackFloor ≤ 1000
  | 21 => p.escalation ≤ 255
  | 22 => 20 ≤ p.markTimeout ∧ p.markTimeout ≤ 1000
  | _ => True

/-- R43: where a load first fails: an entry's index and field, in index order, or 96 and a field of the settings. -/
def FirstFailingPlace (drafts : List ConditionFields) (st : SiteSettings) : Option (Nat × Nat) → Prop
  | none => (∀ f, f ∈ drafts → checkCondition f = none) ∧ checkSettings st = none
  | some (place, field) =>
    (∃ f, drafts[place]? = some f ∧ checkCondition f = some field
      ∧ ∀ j g, j < place → drafts[j]? = some g → checkCondition g = none)
    ∨ (place = 96 ∧ (∀ f, f ∈ drafts → checkCondition f = none) ∧ checkSettings st = some field)

/-! ## The re-check at LOAD_PROFILE (R137) -/

/-- R137, the table line by line: from `st` to `new`, by whether the identity is accepted and the slot installed. -/
structure Rechecked (st new : PositionState) (ok installed : Bool) : Prop where
  refused : (st = .disabled ∨ st = .active ∨ st = .tripped) → ok = false → new = .refused
  withdrawn : (st = .active ∨ st = .tripped) → ok = true → installed = false → new = .disabled
  accepted : st = .refused → ok = true → new = .disabled
  unchanged : ¬((st = .disabled ∨ st = .active ∨ st = .tripped) ∧ ok = false) →
    ¬((st = .active ∨ st = .tripped) ∧ ok = true ∧ installed = false) → ¬(st = .refused ∧ ok = true) → new = st

/-! ## Records in common memory (section 11.4) -/

/-- The bytes of the journal header. -/
def journalHeaderBytes (a : Nat) : Prop := Config.journalHeaderBase ≤ a ∧ a < Config.journalHeaderBase + 32

/-- The bytes of a journal slot. -/
def journalSlotBytes (n : Fin 64) (a : Nat) : Prop :=
  Config.journalBase + 32 * n.val ≤ a ∧ a < Config.journalBase + 32 * n.val + 32

/-- Section 11.4: the journal slot holds the record under a sequence number, field by field. -/
structure RecordAt (m : Memory) (n : Fin 64) (q : Seq) (r : Record) : Prop where
  sequence : readNum m (Config.journalBase + 32 * n.val) 4 = q.toNat
  time : readNum m (Config.journalBase + 32 * n.val + 0x04) 4 = r.time.toNat
  kind : readNum m (Config.journalBase + 32 * n.val + 0x08) 1 = r.kind.code
  channel : readNum m (Config.journalBase + 32 * n.val + 0x09) 1 = byteOrNone r.channel
  position : readNum m (Config.journalBase + 32 * n.val + 0x0A) 1 = byteOrNone r.position
  condition : readNum m (Config.journalBase + 32 * n.val + 0x0B) 1 = byteOrNone r.condition
  line : readNum m (Config.journalBase + 32 * n.val + 0x0C) 1 = (r.line.map (fun l => l.val + 1)).getD 0xFF
  newState : readNum m (Config.journalBase + 32 * n.val + 0x0D) 1 = r.newState.code
  strikeCount : r.strikeCount < 256 → readNum m (Config.journalBase + 32 * n.val + 0x0E) 1 = r.strikeCount
  buffer : readNum m (Config.journalBase + 32 * n.val + 0x0F) 1 = byteOrNone r.buffer
  value : r.value.getD 0xFFFFFFFF < 4294967296 →
    readNum m (Config.journalBase + 32 * n.val + 0x10) 4 = r.value.getD 0xFFFFFFFF
  marks : readNum m (Config.journalBase + 32 * n.val + 0x14) 1
    = flag r.joined + 2 * flag r.replaced + 4 * flag r.withdrawn + 8 * flag r.extended

end Sys2Proof.Machine
end

