-- ==== Sys2Proof/Certificates/Slice0/Obligations.lean ====
section
/-! DEFINITION. The statements about the card, for the provers. -/

open Sys2Proof Sys2Proof.Machine

/-! ## The step and the queue of commands -/

/-- A step takes the command at the front of the queue: it is exec of that command on the state with the queue's
rest; on an empty queue the card idles. The queue is the model's own (log 2). -/
def Obligations.StepTakesTheFrontCommand : Prop :=
  (∀ (c : Instr) (rest : List Instr) (s : State),
    s.pending = c :: rest → step s = exec c { s with pending := rest })
  ∧ ∀ s : State, s.pending = [] → step s = .next s

/-- Every command answers a next state, in every state, with the queue unchanged: the card never stops. A command
that names an event the state does not hold ready changes nothing: the model's choice, log 1. -/
def Obligations.EveryCommandCompletesAndKeepsTheQueue : Prop :=
  ∀ (c : Instr) (s : State), ∃ t, exec c s = .next t ∧ t.pending = s.pending

/-! ## Resets and initialization -/

/-- R159: when the two resets are taken, and when they are left. -/
def Obligations.ResetsAreTaken : Prop :=
  ∀ (pins : Pins) (s : State),
    (∃ t, exec (.powerOnReset false pins) s = .next t ∧ t.phase = .initializing)
    ∧ (∃ t, exec (.powerOnReset true pins) s = .next t ∧ t.phase = .held true)
    ∧ (∀ v : Word, v.getLsbD 0 = true → (s.phase = .initializing ∨ s.phase = .ready) →
        ∃ t, exec (.controllerReset (.resetCtlWrite v) pins) s = .next t ∧ t.phase = .initializing ∧ t.now = 0
          ∧ t.chans = Vector.replicate 4 ⟨.off, none, none, false, true⟩)
    ∧ ((s.phase = .initializing ∨ s.phase = .ready) →
        ∃ t, exec (.controllerReset .backplaneLine pins) s = .next t ∧ t.phase = .held false
          ∧ t.chans = Vector.replicate 4 ⟨.off, none, none, false, true⟩)
    ∧ (∀ (c : Instr) (t : State) (powerOn : Bool), s.phase = .held powerOn → c ≠ .supplyLoss →
        (∀ b p, c ≠ .powerOnReset b p) → (∀ p, c ≠ .backplaneResetRelease p) →
        exec c s = .next t → t.phase = .held powerOn)
    ∧ (∀ powerOn : Bool, s.phase = .held powerOn →
        ∃ t, exec (.backplaneResetRelease pins) s = .next t ∧ t.phase = .initializing)
    ∧ (∀ v : Word, v.getLsbD 0 = false →
        exec (.registerWriteIgnored .resetCtl v) s = .next s
        ∧ exec (.controllerReset (.resetCtlWrite v) pins) s = .next s)

/-- The state of every block as the card leaves a reset, of either kind (R5, R10, R13, R14, R18, R19, R38, R39, R48,
R75, R80, R93, R109, R125, R139, R154, R164, R168), and common memory then (R160, R161). What is in flight or held
for the model's own use is empty then: log 4, log 30. The time of a monitor's last mark is 0, the model's choice: log
34. -/
def Obligations.BlocksAndMemoryAfterAReset : Prop :=
  ∀ (c : Instr) (pins : Pins) (s : State) (powerOn : Bool),
    (c = .powerOnReset false pins ∧ powerOn = true)
    ∨ (∃ v : Word, c = .controllerReset (.resetCtlWrite v) pins ∧ v.getLsbD 0 = true
        ∧ (s.phase = .initializing ∨ s.phase = .ready) ∧ powerOn = false)
    ∨ (c = .backplaneResetRelease pins ∧ s.phase = .held powerOn) →
    ∃ t, exec c s = .next t ∧ t.phase = .initializing ∧ t.now = 0 ∧ t.initialized = []
      ∧ t.scanner = { latest := Vector.replicate 96 0, previous := Vector.replicate 96 0
                      arrived := Vector.replicate 96 false
                      rings := Vector.replicate 6 ⟨Vector.replicate 64 0, 0⟩
                      arcAsserted := pins.arcs, interlockClosed := pins.loopClosed, closureTimer := none }
      ∧ (∀ d, t.monitor d = ⟨false, 0, 250, 0⟩)
      ∧ (∀ i, t.entry i = ⟨⟨0, 0, 0, 0, 0, 0, 0, 0, 0, 0, 0, 0, 0⟩, .disabled, 0, false⟩)
      ∧ t.evaluator.settings = ⟨0, Vector.replicate 8 0, 0, 0, 0⟩
      ∧ t.evaluator.configured = false ∧ t.evaluator.load = none
      ∧ (∀ d, t.chan d = ⟨.off, none, none, false, true⟩)
      ∧ (∀ d, t.strike d = ⟨[], false, 0, 0, 0, 0, 1, none⟩)
      ∧ (∀ d, t.resolver d = ⟨none, none, none, none, 0, [], 0⟩)
      ∧ t.arbiter = ⟨[], [], .free, 0, 0, false⟩
      ∧ (∀ p, t.position p = ⟨.empty, 0xFF, false, look pins.presence p,
          if look pins.presence p then some 100 else none, none⟩)
      ∧ (∀ b, t.buffer b = ⟨.free, 0, 0, 0⟩) ∧ t.captures.postCounts = Vector.replicate 6 0
      ∧ t.handler = ⟨none, false, false⟩
      ∧ t.journal.newest = 0 ∧ t.journal.next = 0 ∧ t.journal.waiting = []
      ∧ t.status = ⟨0, 0, none⟩ ∧ t.irqEnable = 0
      ∧ (∀ d, t.link d = ⟨[], [], 0, 0, 0, 0, 0, [], []⟩) ∧ t.trips = []
      ∧ (∀ a, readByte t.mem a =
          if powerOn = true ∨ (0x2000 ≤ a ∧ a < 0x3000) then 0 else readByte s.mem a)

/-- R1: the time counter. -/
def Obligations.TimeCounterCounts : Prop :=
  ∀ (s : State) (pins : Pins),
    (running s = true → ∃ t, exec .timeCounterTick s = .next t ∧ t.now = s.now + 1)
    ∧ (running s = true → s.now = 4294967295 → ∃ t, exec .timeCounterWrap s = .next t ∧ t.now = 0)
    ∧ (running s = true → s.now ≠ 4294967295 → exec .timeCounterTick s = .next { s with now := s.now + 1 })
    ∧ (∃ t, exec (.powerOnReset false pins) s = .next t ∧ t.now = 0)
    ∧ (∀ v : Word, v.getLsbD 0 = true → (s.phase = .initializing ∨ s.phase = .ready) →
        ∃ t, exec (.controllerReset (.resetCtlWrite v) pins) s = .next t ∧ t.now = 0)
    ∧ (∀ b, s.phase = .held b → ∃ t, exec (.backplaneResetRelease pins) s = .next t ∧ t.now = 0)

/-- R77: at the wrap every channel's strike list is pruned, measured at that moment, and nothing else changes; a
tick at the greatest value is that same event (log 22). The age is that of R76, modulo 2^32, whatever time has passed:
the model's choice for an entry kept at the wrap before, log 38. -/
def Obligations.WrapPrunesEveryStrikeList : Prop :=
  ∀ s : State, running s = true → s.now = 4294967295 →
    exec .timeCounterTick s = exec .timeCounterWrap s
    ∧ ∃ t, exec .timeCounterWrap s = .next t ∧ t = { s with now := 0, strikes := t.strikes }
      ∧ (∀ c p, (s.chan c).profile = some p →
        t.strike c = { s.strike c with
          times := (s.strike c).times.filter (fun x => decide (((0 : Time) - x).toNat ≤ p.strikeWindow * 1000)) })
      ∧ ∀ c, (s.chan c).profile = none → (s.strike c).times = [] → t.strike c = s.strike c

/-- R162: initialization ends: READY, every slot FREE, the release word 0, the first rewrite due, and the blocks as
they were; in any other phase it is no event (log 1). R161, R164: the held records are numbered from the newest number
on, in the order sent, the last 64 of them standing in consecutive journal slots, with the header after the last.
R161, R151: what it writes is the areas not yet written, the slots and the release word, with the held records and the
headers of captures that they start; where nothing was written and no record waits, the identity record, the journal,
the confirmation records, the capture headers and the capture data as named. When each area is written, and that the
held records are numbered in this step, is the model's reading: log 8, log 13. -/
def Obligations.InitializationEnds : Prop :=
  ∀ s : State,
    (s.phase ≠ .initializing → exec .initializationEnd s = .next s)
    ∧ (s.phase = .initializing →
      ∃ t, exec .initializationEnd s = .next t ∧ t.phase = .ready
        ∧ t = { s with phase := .ready, mem := t.mem, initialized := t.initialized, captures := t.captures
                       journal := t.journal, status := { s.status with due := s.now } }
        ∧ (∀ k, slotWord t.mem k 0 = 0) ∧ releaseWord t.mem = 0 ∧ reqDonePending t = false
        ∧ t.journal = { s.journal with
            newest := numberAfterRecords s.journal.newest (heldRecords s).length
            next := slotsOn s.journal.next (heldRecords s).length
            waiting := s.journal.waiting.filter (fun w => w.awaitsCapture) }
        ∧ (∀ k w, (heldRecords s)[k]? = some w → (heldRecords s).length ≤ k + 64 →
            RecordAt t.mem (slotsOn s.journal.next k) (numberAfterRecords s.journal.newest (k + 1)) w.record)
        ∧ (heldRecords s ≠ [] ∨ .journal ∉ s.initialized →
            readNum t.mem 0x0080 4 = t.journal.newest.toNat ∧ readNum t.mem 0x0084 2 = t.journal.next.val)
        ∧ (.journal ∉ s.initialized → ∀ n, (∀ k, k < (heldRecords s).length → slotsOn s.journal.next k ≠ n) →
            ∀ a, journalSlotBytes n a → readByte t.mem a = 0)
        ∧ (∀ area, area = .identity ∨ area = .confirmations → area ∉ s.initialized → AreaWritten area s t.mem)
        ∧ ((∀ w, w ∈ heldRecords s → ¬ StartsCapture w.record) → t.captures = s.captures
            ∧ (.captures ∉ s.initialized → AreaWritten .captures s t.mem))
        ∧ MemoryBut (fun a =>
            (∃ area, (area ∉ s.initialized ∨ area = .slots ∨ area = .release) ∧ areaBytes area a)
            ∨ (∃ k, k < (heldRecords s).length
                ∧ (journalHeaderBytes a ∨ journalSlotBytes (slotsOn s.journal.next k) a))
            ∨ ((∃ w, w ∈ heldRecords s ∧ StartsCapture w.record) ∧ ∃ b, headerBytes b a)) s t
        ∧ (s.journal.waiting = [] → t.journal = s.journal ∧ t.captures = s.captures))
    ∧ (s.phase = .initializing → s.initialized = [] → s.journal = ⟨0, 0, [], s.journal.sent⟩ →
      (∀ c, s.strike c = ⟨[], false, 0, 0, 0, 0, 1, none⟩) → (∀ b, s.buffer b = ⟨.free, 0, 0, 0⟩) →
      ∃ t, exec .initializationEnd s = .next t
        ∧ (List.range 11).map (fun k => readNum t.mem (2 * k) 2) = [1, 4, 6, 96, 8, 96, 16, 64, 4, 128, 6]
        ∧ readNum t.mem 0x0080 4 = 0 ∧ readNum t.mem 0x0084 2 = 0
        ∧ (∀ a, 0x0600 ≤ a → a < 0x0E00 → readByte t.mem a = 0)
        ∧ (∀ c : Channel, readNum t.mem (0x00C0 + 16 * c.val) 2 = 0
            ∧ readNum t.mem (0x00C0 + 16 * c.val + 2) 2 = c.val
            ∧ ∀ a, 0x00C0 + 16 * c.val + 4 ≤ a → a < 0x00C0 + 16 * c.val + 16 → readByte t.mem a = 0)
        ∧ (∀ a, 0x0E00 ≤ a → a < 0x0E80 → readByte t.mem a = 0)
        ∧ (∀ a, 0x3000 ≤ a → a < 0x4800 → readByte t.mem a = 0)
        ∧ (∀ a, (0x0040 ≤ a ∧ a < 0x0080) ∨ (0x00A4 ≤ a ∧ a < 0x00C0) ∨ (0x0500 ≤ a ∧ a < 0x0600)
            ∨ (0x0E80 ≤ a ∧ a < 0x3000) ∨ 0x4800 ≤ a → readByte t.mem a = readByte s.mem a))

/-! ## Registers and words of common memory -/

/-- R154: a write to ATTN, of any value. -/
def Obligations.AttnIsTaken : Prop :=
  ∀ (v : Word) (s : State),
    (∀ (pins : Pins), (∃ t, exec (.powerOnReset false pins) s = .next t ∧ t.handler = ⟨none, false, false⟩)
      ∧ (∀ x : Word, x.getLsbD 0 = true → (s.phase = .initializing ∨ s.phase = .ready) →
          ∃ t, exec (.controllerReset (.resetCtlWrite x) pins) s = .next t ∧ t.handler = ⟨none, false, false⟩)
      ∧ (∀ b, s.phase = .held b →
          ∃ t, exec (.backplaneResetRelease pins) s = .next t ∧ t.handler = ⟨none, false, false⟩))
    ∧ (s.phase ≠ .ready → exec (.attn v) s = .next s)
    ∧ (s.phase = .ready → s.handler.sweep = none →
        ∃ t, exec (.attn v) s = .next t ∧ t = { s with handler := { s.handler with sweep := some ⟨0, 0⟩ } }
          ∧ (statusRegister t).getLsbD 2 = true)
    ∧ (∀ w, s.phase = .ready → s.handler.sweep = some w →
        exec (.attn v) s = .next { s with handler := { s.handler with again := true } })

/-- R157: a write to IRQ_ENABLE sets the four enables from its four enable bits; a write to STATUS or IDENT is
ignored. A write to IRQ_ENABLE in reset has no effect (the model's reading, log 17). -/
def Obligations.RegisterWrites : Prop :=
  ∀ (v : Word) (s : State),
    (running s = true → ∃ t, exec (.irqEnableWrite v) s = .next t ∧ t = { s with irqEnable := t.irqEnable }
      ∧ (∀ i, i < 4 → t.irqEnable.getLsbD i = v.getLsbD i)
      ∧ ∀ i, (registerRead t 2).getLsbD i = (decide (i < 4) && v.getLsbD i))
    ∧ (running s = false → exec (.irqEnableWrite v) s = .next s)
    ∧ exec (.registerWriteIgnored .status v) s = .next s
    ∧ exec (.registerWriteIgnored .ident v) s = .next s

/-- R167, R171: a write of the release word, whole or in halves, and JOURNAL after it. That such a write lands while
the card is held in reset is the model's reading: log 17. -/
def Obligations.ReleaseWordIsWritten : Prop :=
  ∀ s : State, s.phase ≠ .unpowered →
    (∀ v : BitVec 32, ∃ t, exec (.journalReleaseWrite (.whole v)) s = .next t ∧ t = { s with mem := t.mem }
      ∧ releaseWord t.mem = v.toNat ∧ (journalPending t = true ↔ s.journal.newest ≠ v)
      ∧ MemoryBut (fun a => 0x00A0 ≤ a ∧ a < 0x00A4) s t)
    ∧ (∀ v : Word, ∃ t, exec (.journalReleaseWrite (.low v)) s = .next t ∧ t = { s with mem := t.mem }
      ∧ releaseWord t.mem = v.toNat + 65536 * readNum s.mem 0x00A2 2
      ∧ MemoryBut (fun a => 0x00A0 ≤ a ∧ a < 0x00A2) s t)
    ∧ (∀ v : Word, ∃ t, exec (.journalReleaseWrite (.high v)) s = .next t ∧ t = { s with mem := t.mem }
      ∧ releaseWord t.mem = readNum s.mem 0x00A0 2 + 65536 * v.toNat
      ∧ MemoryBut (fun a => 0x00A2 ≤ a ∧ a < 0x00A4) s t)

/-- R158, R152: a write of a slot's state word, and REQ_DONE after it; and the memory traffic that goes before one
(log 6): plain writes, the writes of initialization (R161, log 8) and the reads of a load (R40, log 7). That such a
write lands while the card is held in reset is the model's reading: log 17. -/
def Obligations.SlotStateIsWritten : Prop :=
  ∀ (s : State) (k : SlotIx) (v : Word), s.phase ≠ .unpowered →
    (∃ t, exec (.slotStateWrite [] k v) s = .next t ∧ t = { s with mem := t.mem }
      ∧ slotWord t.mem k 0 = v.toNat
      ∧ MemoryBut (fun a => slotAddress k ≤ a ∧ a < slotAddress k + 2) s t
      ∧ (reqDonePending t = true ↔ v = 3 ∨ ∃ j, j ≠ k ∧ slotWord s.mem j 0 = 3))
    ∧ (∀ (a : Word) (b : Byte) (before : List Traffic), ∃ s1,
        exec (.slotStateWrite (.write a b :: before) k v) s = exec (.slotStateWrite before k v) s1
        ∧ s1 = { s with mem := s1.mem } ∧ readByte s1.mem a.toNat = b ∧ MemoryBut (fun x => x = a.toNat) s s1)
    ∧ (∀ (area : InitArea) (before : List Traffic), s.phase = .initializing → area ∉ s.initialized → ∃ s1,
        exec (.slotStateWrite (.initArea area :: before) k v) s = exec (.slotStateWrite before k v) s1
        ∧ s1 = { s with mem := s1.mem, initialized := area :: s.initialized }
        ∧ AreaWritten area s s1.mem ∧ MemoryBut (areaBytes area) s s1)
    ∧ (∀ (area : InitArea) (before : List Traffic), s.phase ≠ .initializing ∨ area ∈ s.initialized →
        exec (.slotStateWrite (.initArea area :: before) k v) s = exec (.slotStateWrite before k v) s)
    ∧ (∀ (upTo : Nat) (before : List Traffic) (l : Load), s.evaluator.load = some l → l.drafts.length ≤ 96 → ∃ s1,
        exec (.slotStateWrite (.readDrafts upTo :: before) k v) s = exec (.slotStateWrite before k v) s1
        ∧ s1 = { s with evaluator := { s.evaluator with
            load := some ⟨l.slot, ((List.finRange 96).map (l.draftAt s.mem)).take (max l.drafts.length upTo),
              if 97 ≤ upTo then some (l.settingsAt s.mem) else l.settings⟩ } })
    ∧ (∀ (upTo : Nat) (before : List Traffic), s.evaluator.load = none →
        exec (.slotStateWrite (.readDrafts upTo :: before) k v) s = exec (.slotStateWrite before k v) s)

/-- R157, R158, section 11.2: the STATUS register bit by bit, and the IRQ line. -/
def Obligations.StatusRegisterAndIrqLine : Prop :=
  ∀ s : State,
    (∀ b, s.phase = .held b → statusRegister s = 0 ∧ irqLine s = false)
    ∧ (s.phase = .initializing → irqLine s = false)
    ∧ (running s = true →
        ((statusRegister s).getLsbD 0 = true ↔ s.phase = .ready)
        ∧ (statusRegister s).getLsbD 1 = s.handler.ack
        ∧ (statusRegister s).getLsbD 2 = s.handler.sweep.isSome
        ∧ ((statusRegister s).getLsbD 3 = true ↔ ∃ k, slotWord s.mem k 0 = 3)
        ∧ ((statusRegister s).getLsbD 4 = true ↔ s.journal.newest.toNat ≠ releaseWord s.mem)
        ∧ ((statusRegister s).getLsbD 5 = true ↔ ∃ c, (s.strike c).pending = true)
        ∧ ((statusRegister s).getLsbD 6 = true ↔ ∃ b, (s.buffer b).state = .ready)
        ∧ (statusRegister s).getLsbD 7 = s.evaluator.configured
        ∧ (statusRegister s).getLsbD 8 = s.scanner.interlockClosed
        ∧ ∀ i, 9 ≤ i → (statusRegister s).getLsbD i = false)
    ∧ (s.phase = .ready → (irqLine s = true ↔
        ∃ i, i < 4 ∧ (statusRegister s).getLsbD (3 + i) = true ∧ s.irqEnable.getLsbD i = true))

/-- R74, R49, R130, section 6.2: the site alarm relay, and the MUTE, drive-level and BIAS outputs of a card with
supply, at rest in reset and while initializing (R160; StepKeepsCardAtRestBeforeReady says the law it rests on); the
loss of supply releases the relay (the model keeps nothing without supply, log 16). -/
def Obligations.OutputLines : Prop :=
  ∀ s : State,
    (relayEnergized s = true ↔ s.phase = .ready ∧ (∀ c, (s.chan c).state ≠ .lockout)
      ∧ (∀ p, (s.position p).state ≠ .tripped) ∧ s.scanner.interlockClosed = true)
    ∧ (s.phase ≠ .unpowered →
        (∀ c, muteLine s c = (s.chan c).mute ∧ driveMillivolts s c = 10 * (s.resolver c).drive)
        ∧ ∀ p, biasLine s p = (s.position p).bias)
    ∧ (RestLaw s → ((∃ b, s.phase = .held b) ∨ s.phase = .initializing) →
        (∀ c, muteLine s c = true ∧ driveMillivolts s c = 0) ∧ (∀ p, biasLine s p = false)
        ∧ relayEnergized s = false ∧ irqLine s = false)
    ∧ ∃ t, exec .supplyLoss s = .next t ∧ t.phase = .unpowered ∧ relayEnergized t = false
      ∧ t.mem = [] ∧ (∀ c, (t.chan c).state = .off ∧ (t.chan c).profile = none) ∧ t.pending = s.pending

/-! ## Sweeps and slots -/

/-- R155: a visit passes over a slot that is not POSTED, takes the request of one that is, and does nothing while a
load holds the sweep. R156: the end of a sweep. That the row of a request is the visit that takes it is the model's
reading: log 5. -/
def Obligations.SlotsAreVisitedAndSweepsEnd : Prop :=
  ∀ s : State,
    (∀ (k : SlotIx) (n : Nat), s.handler.sweep = some ⟨k.val, n⟩ → s.evaluator.load = none →
      slotWord s.mem k 0 ≠ 1 →
      exec .slotVisit s = .next { s with handler := { s.handler with sweep := some ⟨k.val + 1, n⟩ } })
    ∧ (∀ k n kind w1 w2 w3, Offered s k n kind w1 w2 w3 →
      exec .slotVisit s = exec (requestCommand (kindOf kind)) s)
    ∧ (s.evaluator.load.isSome = true → exec .slotVisit s = .next s)
    ∧ (∀ n : Nat, s.handler.sweep = some ⟨16, n⟩ →
      exec .sweepEnd s = .next { s with handler := {
        sweep := if s.handler.again = true then some ⟨0, 0⟩ else none
        again := false
        ack := if 1 ≤ n then !s.handler.ack else s.handler.ack } })

/-- R152, R153: a request other than LOAD_CONDITIONS is completed in its slot in one event, and a refused one
changes nothing else; a kind field that names no request gets BAD_KIND. That the row of a request is the visit that
takes it is the model's reading: log 5. -/
def Obligations.RequestsAreAnsweredInTheirSlot : Prop :=
  ∀ (s : State) (k : SlotIx) (n kind w1 w2 w3 : Nat), Offered s k n kind w1 w2 w3 → kind ≠ 1 →
    ∃ (t : State) (r : Reply), exec (requestCommand (kindOf kind)) s = .next t ∧ Answered s t k n r
      ∧ (r.code ≠ .tableError → r.detail1 = 0 ∧ r.detail2 = 0)
      ∧ (r.code ≠ .ok → t = { s with mem := t.mem, handler := t.handler } ∧ MemoryBut (slotBytes k) s t)
      ∧ (kind = 0 ∨ 12 < kind → exec .badKind s = .next t ∧ r = ⟨.badKind, 0, 0⟩)

/-! ## LOAD_CONDITIONS -/

/-- R40: LOAD_CONDITIONS is taken: its slot is TAKEN, and the load begins and holds the sweep. R43: a load whose
drafts fail a check ends with TABLE_ERROR, its first failing place, and nothing else changed. That a draft is read
whole is the model's reading: log 7. R171, R41, R42, R43: the fields of the drafts, the check of each field, and the
order of the checks. -/
def Obligations.LoadBeginsAndIsRefused : Prop :=
  (∀ s : State,
    (∀ k n w1 w2 w3, Offered s k n 1 w1 w2 w3 →
      ∃ t, exec .loadConditions s = .next t
        ∧ t = { s with mem := t.mem, evaluator := { s.evaluator with load := some ⟨k, [], none⟩ } }
        ∧ slotWord t.mem k 0 = 2 ∧ MemoryBut (fun a => slotAddress k ≤ a ∧ a < slotAddress k + 2) s t
        ∧ exec .slotVisit t = .next t)
    ∧ (∀ (l : Load) (n : Nat) (order : List ArcLine) (place field : Nat), s.evaluator.load = some l →
      s.handler.sweep = some ⟨l.slot.val, n⟩ → l.drafts.length ≤ 96 →
      firstBadPlace ((List.finRange 96).map (l.draftAt s.mem)) (l.settingsAt s.mem) = some (place, field) →
      ∃ t, exec (.loadEnd order) s = .next t
        ∧ t = { s with mem := t.mem, handler := t.handler, evaluator := { s.evaluator with load := none } }
        ∧ Answered s t l.slot n ⟨.tableError, place, field⟩ ∧ MemoryBut (slotBytes l.slot) s t))
  ∧ (∀ (m : Memory) (i : EntryIx), readCondition m i =
      { enable := readNum m (0x1000 + 32 * i.val) 1, compare := readNum m (0x1000 + 32 * i.val + 0x01) 1
        pointA := readNum m (0x1000 + 32 * i.val + 0x02) 1, pointB := readNum m (0x1000 + 32 * i.val + 0x03) 1
        level1 := readNum m (0x1000 + 32 * i.val + 0x04) 2, level2 := readNum m (0x1000 + 32 * i.val + 0x06) 2
        band := readNum m (0x1000 + 32 * i.val + 0x08) 2, setCount := readNum m (0x1000 + 32 * i.val + 0x0A) 1
        clearCount := readNum m (0x1000 + 32 * i.val + 0x0B) 1, action := readNum m (0x1000 + 32 * i.val + 0x0C) 1
        scope := readNum m (0x1000 + 32 * i.val + 0x0D) 1, latch := readNum m (0x1000 + 32 * i.val + 0x0E) 1
        capture := readNum m (0x1000 + 32 * i.val + 0x0F) 1 })
  ∧ (∀ m : Memory, (readSettings m).arcEnable = readByte m 0x0040
      ∧ (∀ l : ArcLine, look (readSettings m).arcScope l = readByte m (0x0044 + l.val))
      ∧ (readSettings m).preemptHold = readNum m 0x0041 1 ∧ (readSettings m).captureEnable = readNum m 0x0042 1
      ∧ (readSettings m).capturePolicy = readNum m 0x0043 1)
  ∧ (∀ f : ConditionFields, (f.enable = 0 → checkCondition f = none)
      ∧ (f.enable ≠ 0 → FirstFailing (ConditionFieldPasses f) 13 (checkCondition f)))
  ∧ (∀ st : SiteSettings, FirstFailing (SettingsFieldPasses st) 5 (checkSettings st))
  ∧ ∀ (drafts : List ConditionFields) (st : SiteSettings), drafts.length = 96 →
      FirstFailingPlace drafts st (firstBadPlace drafts st)

/-- R44, R45: the switch, for a load that has read any number of its drafts before its end: the entries, the records
and the deliveries of the withdrawals, to the channels of the old scopes. That a draft is read whole, and the order of
the withdrawals, are the model's reading: log 7, log 15. The stamps of the deliveries are the model's own: log 14. -/
def Obligations.LoadSwitchesTheTable : Prop :=
  ∀ (s : State) (l : Load) (n : Nat) (order : List ArcLine), s.evaluator.load = some l → l.drafts.length ≤ 96 →
    s.handler.sweep = some ⟨l.slot.val, n⟩ →
    firstBadPlace ((List.finRange 96).map (l.draftAt s.mem)) (l.settingsAt s.mem) = none →
    ∃ t, exec (.loadEnd order) s = .next t
      ∧ t = { s with mem := t.mem, handler := t.handler, evaluator := t.evaluator, journal := t.journal
                     links := t.links }
      ∧ Answered s t l.slot n ⟨.ok, 0, 0⟩ ∧ MemoryBut (slotBytes l.slot) s t
      ∧ t.evaluator.settings = l.settingsAt s.mem ∧ t.evaluator.configured = true ∧ t.evaluator.load = none
      ∧ (∀ i, t.entry i = if l.draftAt s.mem i = (s.entry i).fields then s.entry i
          else ⟨l.draftAt s.mem i, if (l.draftAt s.mem i).enable = 1 then .normal else .disabled, 0, false⟩)
      ∧ SentAll s t .evaluator none ((switchWithdraws s l).map
          (fun i => conditionRecord .conditionCleared i (s.entry i).fields none true s))
      ∧ ∀ c, t.link c = { s.link c with
          fromScanner := (t.link c).fromScanner
          foldback := (s.link c).foldback ++ (switchWithdraws s l).filterMap (fun i =>
            if actionOf (s.entry i).fields.action = some .foldback ∧ (s.entry i).fields.scope.testBit c.val = true
            then some (.leave i) else none)
          fromEvaluator := (s.link c).fromEvaluator
            ++ ((switchWithdraws s l).zipIdx s.journal.sent).filterMap (fun x =>
              if actionOf (s.entry x.1).fields.action = some .strike
                ∧ (s.entry x.1).fields.scope.testBit c.val = true
              then some ⟨.conditionCleared x.1, x.2 + 1⟩ else none) }

/-- R9: at the switch each asserted arc line strikes the channels it newly holds and sends an arc cleared event to
those it no longer holds; what went before on a link stays ahead. The order of the lines is an operand: log 15. The
stamps of the deliveries are the model's own: log 14. -/
def Obligations.ArcLinesAtTheSwitch : Prop :=
  ∀ (s : State) (l : Load) (n : Nat) (order : List ArcLine), order.Nodup → s.evaluator.load = some l →
    l.drafts.length ≤ 96 → s.handler.sweep = some ⟨l.slot.val, n⟩ →
    firstBadPlace ((List.finRange 96).map (l.draftAt s.mem)) (l.settingsAt s.mem) = none →
    ∃ t, exec (.loadEnd order) s = .next t ∧ t.scanner = s.scanner
      ∧ ∀ c, ∃ sent : List ScannerEvent,
        (t.link c).fromScanner = (s.link c).fromScanner
          ++ sent.map (fun e => ⟨e, s.journal.sent + (switchWithdraws s l).length⟩)
        ∧ (∀ a, ScannerEvent.strike a ∈ sent ↔ look s.scanner.arcAsserted a = true
            ∧ covers (l.settingsAt s.mem) a c = true ∧ covers s.evaluator.settings a c = false)
        ∧ (∀ a, ScannerEvent.arcCleared a ∈ sent ↔ look s.scanner.arcAsserted a = true
            ∧ covers s.evaluator.settings a c = true ∧ covers (l.settingsAt s.mem) a c = false)
        ∧ ScannerEvent.opened ∉ sent ∧ ScannerEvent.closed ∉ sent ∧ sent.Nodup

/-! ## Requests -/

/-- R36: CLEAR_CONDITION clears a latched entry in ACTIVE with its mark set, and sends its withdrawal; R32, R33 give
the deliveries of a FOLDBACK and of a STRIKE entry. The stamps of the deliveries are the model's own: log 14. -/
def Obligations.ClearConditionIsTaken : Prop :=
  ∀ (s : State) (k : SlotIx) (n w1 w2 w3 : Nat), Offered s k n 8 w1 w2 w3 →
    (96 ≤ w1 → ∃ t, exec .clearCondition s = .next t ∧ Answered s t k n ⟨.badArgument, 0, 0⟩)
    ∧ ∀ i : EntryIx, w1 = i.val →
      ((s.entry i).state = .active → (s.entry i).clearSeen = true → (s.entry i).fields.latch = 1 →
        ∃ t, exec .clearCondition s = .next t ∧ Answered s t k n ⟨.ok, 0, 0⟩
          ∧ t = { s with mem := t.mem, handler := t.handler, evaluator := t.evaluator, journal := t.journal
                         links := t.links }
          ∧ t.entry i = { s.entry i with state := .normal, count := 0, clearSeen := false }
          ∧ (∀ j, j ≠ i → t.entry j = s.entry j)
          ∧ Sent s t .evaluator none false (conditionRecord .conditionCleared i (s.entry i).fields none false s)
          ∧ MemoryBut (slotBytes k) s t
          ∧ ∀ c, t.link c = { s.link c with
              foldback := (s.link c).foldback ++
                if actionOf (s.entry i).fields.action = some .foldback ∧ (s.entry i).fields.scope.testBit c.val = true
                then [.leave i] else []
              fromEvaluator := (s.link c).fromEvaluator ++
                if actionOf (s.entry i).fields.action = some .strike ∧ (s.entry i).fields.scope.testBit c.val = true
                then [⟨.conditionCleared i, s.journal.sent + 1⟩] else [] })
      ∧ ((s.entry i).state = .active → ¬((s.entry i).clearSeen = true ∧ (s.entry i).fields.latch = 1) →
        ∃ t, exec .clearCondition s = .next t ∧ Answered s t k n ⟨.stillActive, 0, 0⟩)
      ∧ ((s.entry i).state ≠ .active →
        ∃ t, exec .clearCondition s = .next t ∧ Answered s t k n ⟨.wrongState, 0, 0⟩)

/-- R50 to R52, R136, R137: LOAD_PROFILE. R137 line by line: where the channel's six positions go, with BIAS off for
one that changes, and their records in slot order. R171, R51: the fields of the draft, and the check of each field in
its order. -/
def Obligations.LoadProfileIsTaken : Prop :=
  (∀ (s : State) (k : SlotIx) (n w1 w2 w3 : Nat), Offered s k n 2 w1 w2 w3 →
    (4 ≤ w1 → ∃ t, exec .loadProfile s = .next t ∧ Answered s t k n ⟨.badArgument, 0, 0⟩)
    ∧ ∀ c : Channel, w1 = c.val →
      ((s.chan c).state ≠ .off →
        ∃ t, exec .loadProfile s = .next t ∧ Answered s t k n ⟨.channelActive, 0, 0⟩)
      ∧ (∀ field, (s.chan c).state = .off → checkProfile (readProfile s.mem c) = some field →
        ∃ t, exec .loadProfile s = .next t ∧ Answered s t k n ⟨.tableError, c.val, field⟩)
      ∧ ((s.chan c).state = .off → checkProfile (readProfile s.mem c) = none →
        ∃ t, exec .loadProfile s = .next t ∧ Answered s t k n ⟨.ok, 0, 0⟩
          ∧ t = { s with mem := t.mem, handler := t.handler, chans := t.chans, resolvers := t.resolvers
                         positions := t.positions, journal := t.journal, links := t.links }
          ∧ t.chan c = { s.chan c with profile := some (readProfile s.mem c) }
          ∧ (∀ j : Fin 6,
              Rechecked (s.position (positionOf c j)).state (t.position (positionOf c j)).state
                ((s.position (positionOf c j)).identity.toNat == (readProfile s.mem c).identity)
                ((readProfile s.mem c).installed.testBit j.val)
              ∧ ((t.position (positionOf c j)).state = (s.position (positionOf c j)).state →
                  t.position (positionOf c j) = s.position (positionOf c j))
              ∧ ((t.position (positionOf c j)).state ≠ (s.position (positionOf c j)).state →
                  t.position (positionOf c j) = { s.position (positionOf c j) with
                    state := (t.position (positionOf c j)).state, bias := false }))
          ∧ SentAll s t .positions none
              (((List.finRange 6).filter (fun j =>
                  decide ((t.position (positionOf c j)).state ≠ (s.position (positionOf c j)).state))).map
                (fun j => { time := s.now, kind := .positionChanged, channel := some c
                            position := some (positionOf c j)
                            newState := .position (t.position (positionOf c j)).state }))
          ∧ (∀ p, channelOf p ≠ c → t.position p = s.position p)
          ∧ t.resolver c = { s.resolver c with
              target := some 0, positions := some (ceilingFor (readProfile s.mem c) (activeCount t c)) }
          ∧ t.link c = { s.link c with counts := (s.link c).counts ++ [activeCount t c] }
          ∧ OtherChannels c s t ∧ MemoryBut (slotBytes k) s t))
  ∧ (∀ (m : Memory) (c : Channel), readProfile m c =
      { installed := readNum m (0x0500 + 64 * c.val) 1, identity := readNum m (0x0500 + 64 * c.val + 0x01) 1
        ceiling := Vector.ofFn (fun k => readNum m (0x0500 + 64 * c.val + 0x02 + 2 * k.val) 2)
        group := readNum m (0x0500 + 64 * c.val + 0x10) 1
        confirmThreshold := readNum m (0x0500 + 64 * c.val + 0x11) 1
        rampStep := readNum m (0x0500 + 64 * c.val + 0x12) 2, rampSpacing := readNum m (0x0500 + 64 * c.val + 0x14) 2
        holdoffTime := readNum m (0x0500 + 64 * c.val + 0x16) 2
        strikeWindow := readNum m (0x0500 + 64 * c.val + 0x18) 2
        lockoutThreshold := readNum m (0x0500 + 64 * c.val + 0x1A) 1
        escalation := readNum m (0x0500 + 64 * c.val + 0x1B) 1
        confirmTimeout := readNum m (0x0500 + 64 * c.val + 0x1C) 2
        foldbackStep := readNum m (0x0500 + 64 * c.val + 0x1E) 2
        recoveryStep := readNum m (0x0500 + 64 * c.val + 0x20) 2
        foldbackFloor := readNum m (0x0500 + 64 * c.val + 0x22) 2
        markTimeout := readNum m (0x0500 + 64 * c.val + 0x24) 2 })
  ∧ ∀ p : Profile, FirstFailing (ProfileFieldPasses p) 22 (checkProfile p)

/-- R53, R54, R94, R97: CHANNEL_ON that passes every check. -/
def Obligations.ChannelOnQueuesTheChannel : Prop :=
  ∀ (s : State) (k : SlotIx) (n w3 target : Nat) (c : Channel) (p : Profile), Offered s k n 3 c.val target w3 →
    target ≤ 1000 → s.evaluator.configured = true → (s.chan c).profile = some p → (s.chan c).state = .off →
    s.scanner.interlockClosed = true →
    (∀ i, bearsOn .strike c (s.entry i) = false ∧ bearsOn .lockout c (s.entry i) = false) →
    ∃ t, exec .channelOn s = .next t ∧ Answered s t k n ⟨.ok, 0, 0⟩
      ∧ t = { s with mem := t.mem, handler := t.handler, chans := t.chans, resolvers := t.resolvers
                     arbiter := t.arbiter, journal := t.journal }
      ∧ t.chan c = { s.chan c with state := .queued }
      ∧ t.resolver c = { s.resolver c with target := some target }
      ∧ t.arbiter.high = tailIf (decide (p.group ≠ 1)) c s.arbiter.high
      ∧ t.arbiter.low = tailIf (decide (p.group = 1)) c s.arbiter.low
      ∧ t.arbiter.engine = grantFrom s.arbiter.engine t.arbiter.high t.arbiter.low
      ∧ t.arbiter.steps = s.arbiter.steps ∧ t.arbiter.lastStep = s.arbiter.lastStep
      ∧ t.arbiter.preemptionSent = s.arbiter.preemptionSent
      ∧ Sent s t (.channel c) none false
          { time := s.now, kind := .channelChanged, channel := some c, newState := .channel .queued
            strikeCount := (s.strike c).times.length }
      ∧ OtherChannels c s t ∧ MemoryBut (slotBytes k) s t

/-- R53: the checks of CHANNEL_ON in their order, and the result of the first that fails. -/
def Obligations.ChannelOnIsChecked : Prop :=
  ∀ (s : State) (k : SlotIx) (n w1 w2 w3 : Nat), Offered s k n 3 w1 w2 w3 →
    (4 ≤ w1 ∨ 1000 < w2 → ∃ t, exec .channelOn s = .next t ∧ Answered s t k n ⟨.badArgument, 0, 0⟩)
    ∧ ∀ c : Channel, w1 = c.val → w2 ≤ 1000 →
      (s.evaluator.configured = false →
        ∃ t, exec .channelOn s = .next t ∧ Answered s t k n ⟨.notConfigured, 0, 0⟩)
      ∧ (s.evaluator.configured = true → (s.chan c).profile = none →
        ∃ t, exec .channelOn s = .next t ∧ Answered s t k n ⟨.noProfile, 0, 0⟩)
      ∧ (s.evaluator.configured = true → (s.chan c).profile ≠ none → (s.chan c).state ≠ .off →
        ∃ t, exec .channelOn s = .next t ∧ Answered s t k n ⟨.wrongState, 0, 0⟩)
      ∧ (s.evaluator.configured = true → (s.chan c).profile ≠ none → (s.chan c).state = .off →
          s.scanner.interlockClosed = false →
        ∃ t, exec .channelOn s = .next t ∧ Answered s t k n ⟨.interlocked, 0, 0⟩)
      ∧ (s.evaluator.configured = true → (s.chan c).profile ≠ none → (s.chan c).state = .off →
          s.scanner.interlockClosed = true →
          (∃ i, bearsOn .strike c (s.entry i) = true ∨ bearsOn .lockout c (s.entry i) = true) →
        ∃ t, exec .channelOn s = .next t ∧ Answered s t k n ⟨.stillActive, 0, 0⟩)

/-- R71, R72, R80, R88: CHANNEL_OFF. -/
def Obligations.ChannelOffIsTaken : Prop :=
  ∀ (s : State) (k : SlotIx) (n w1 w2 w3 : Nat), Offered s k n 4 w1 w2 w3 →
    (4 ≤ w1 → ∃ t, exec .channelOff s = .next t ∧ Answered s t k n ⟨.badArgument, 0, 0⟩)
    ∧ ∀ c : Channel, w1 = c.val →
      ((s.chan c).state = .off → ∃ t, exec .channelOff s = .next t ∧ Answered s t k n ⟨.ok, 0, 0⟩
        ∧ t = { s with mem := t.mem, handler := t.handler } ∧ MemoryBut (slotBytes k) s t)
      ∧ ((s.chan c).state = .lockout →
        ∃ t, exec .channelOff s = .next t ∧ Answered s t k n ⟨.wrongState, 0, 0⟩)
      ∧ ((s.chan c).state ≠ .off → (s.chan c).state ≠ .lockout →
        ∃ t, exec .channelOff s = .next t ∧ Answered s t k n ⟨.ok, 0, 0⟩
          ∧ t = { s with mem := t.mem, handler := t.handler, chans := t.chans, strikes := t.strikes
                         resolvers := t.resolvers, arbiter := t.arbiter, journal := t.journal }
          ∧ t.chan c = { s.chan c with state := .off, mute := true, holdoff := none, extended := false }
          ∧ t.strike c = { s.strike c with times := [], pending := false
                                           timer := if (s.strike c).pending then none else (s.strike c).timer }
          ∧ t.resolver c = { s.resolver c with drive := 0, ramp := none, foldback := none, floorMarks := 0 }
          ∧ t.arbiter.high = without c s.arbiter.high ∧ t.arbiter.low = without c s.arbiter.low
          ∧ t.arbiter.engine = grantFrom (releasedBy c s.arbiter.engine) t.arbiter.high t.arbiter.low
          ∧ Sent s t (.channel c) none false
              { time := s.now, kind := .channelChanged, channel := some c, newState := .channel .off
                withdrawn := (s.strike c).pending }
          ∧ ((s.strike c).pending = true → readNum t.mem (Config.confirmationBase + 16 * c.val) 2 = 0)
          ∧ OtherChannels c s t
          ∧ MemoryBut (fun a => slotBytes k a ∨ ((s.strike c).pending = true ∧ confirmationBytes c a)) s t)

/-- R114: SET_TARGET. That a target set to the value it has makes no completion test is the model's reading: log 32;
that a raised one makes it is its choice: log 36. -/
def Obligations.SetTargetIsTaken : Prop :=
  ∀ (s : State) (k : SlotIx) (n w1 w2 w3 : Nat), Offered s k n 5 w1 w2 w3 →
    (4 ≤ w1 ∨ 1000 < w2 → ∃ t, exec .setTarget s = .next t ∧ Answered s t k n ⟨.badArgument, 0, 0⟩)
    ∧ ∀ c : Channel, w1 = c.val → w2 ≤ 1000 →
      ((s.chan c).profile = none → ∃ t, exec .setTarget s = .next t ∧ Answered s t k n ⟨.noProfile, 0, 0⟩)
      ∧ ((s.chan c).profile ≠ none → (s.resolver c).target = some w2 →
        ∃ t, exec .setTarget s = .next t ∧ Answered s t k n ⟨.ok, 0, 0⟩
          ∧ t = { s with mem := t.mem, handler := t.handler } ∧ MemoryBut (slotBytes k) s t)
      ∧ ((s.chan c).profile ≠ none → (s.resolver c).target ≠ some w2 →
        ∃ t, exec .setTarget s = .next t ∧ Answered s t k n ⟨.ok, 0, 0⟩
          ∧ t = { s with mem := t.mem, handler := t.handler, resolvers := t.resolvers, links := t.links }
          ∧ t.resolver c = { s.resolver c with target := some w2, drive := (t.resolver c).drive }
          ∧ (t.resolver c).drive =
              (if (s.chan c).mute = true then (s.resolver c).drive
               else min (s.resolver c).drive (t.resolver c).resolved)
          ∧ t.link c = { s.link c with completions := (s.link c).completions +
              if s.arbiter.engine = .held c ∧ (t.resolver c).rampComplete = true then 1 else 0 }
          ∧ OtherChannels c s t ∧ MemoryBut (slotBytes k) s t)

/-- R83 to R85: CONFIRM_RESTRIKE. -/
def Obligations.ConfirmRestrikeIsTaken : Prop :=
  ∀ (s : State) (k : SlotIx) (n w1 w2 w3 : Nat), Offered s k n 6 w1 w2 w3 →
    (4 ≤ w1 ∨ 1 < w3 → ∃ t, exec .confirmRestrike s = .next t ∧ Answered s t k n ⟨.badArgument, 0, 0⟩)
    ∧ ∀ c : Channel, w1 = c.val → w3 ≤ 1 →
      (¬((s.strike c).pending = true ∧ (s.strike c).number.toNat = w2) →
        ∃ t, exec .confirmRestrike s = .next t ∧ Answered s t k n ⟨.late, 0, 0⟩)
      ∧ ((s.strike c).pending = true → (s.strike c).number.toNat = w2 →
        ∃ t, exec .confirmRestrike s = .next t ∧ Answered s t k n ⟨.ok, 0, 0⟩
          ∧ t = { s with mem := t.mem, handler := t.handler, chans := t.chans, strikes := t.strikes
                         arbiter := t.arbiter, journal := t.journal }
          ∧ t.chan c = { s.chan c with state := if w3 = 0 then .queued else .lockout }
          ∧ t.strike c = { s.strike c with pending := false, timer := none }
          ∧ readNum t.mem (Config.confirmationBase + 16 * c.val) 2 = 0
          ∧ (w3 = 1 → t.arbiter = s.arbiter)
          ∧ (∀ p, w3 = 0 → (s.chan c).profile = some p →
              t.arbiter.high = tailIf (decide (p.group ≠ 1)) c s.arbiter.high
              ∧ t.arbiter.low = tailIf (decide (p.group = 1)) c s.arbiter.low
              ∧ t.arbiter.engine = grantFrom s.arbiter.engine t.arbiter.high t.arbiter.low)
          ∧ Sent s t (.channel c) none false
              { time := s.now, kind := .confirmAnswered, channel := some c
                newState := .channel (if w3 = 0 then .queued else .lockout)
                strikeCount := (s.strike c).times.length }
          ∧ OtherChannels c s t ∧ MemoryBut (fun a => slotBytes k a ∨ confirmationBytes c a) s t)

/-- R90: RELEASE_LOCKOUT. -/
def Obligations.ReleaseLockoutIsTaken : Prop :=
  ∀ (s : State) (k : SlotIx) (n w1 w2 w3 : Nat), Offered s k n 7 w1 w2 w3 →
    (4 ≤ w1 → ∃ t, exec .releaseLockout s = .next t ∧ Answered s t k n ⟨.badArgument, 0, 0⟩)
    ∧ ∀ c : Channel, w1 = c.val →
      ((s.chan c).state ≠ .lockout →
        ∃ t, exec .releaseLockout s = .next t ∧ Answered s t k n ⟨.wrongState, 0, 0⟩)
      ∧ ((s.chan c).state = .lockout → (∃ i, bearsOn .lockout c (s.entry i) = true) →
        ∃ t, exec .releaseLockout s = .next t ∧ Answered s t k n ⟨.stillActive, 0, 0⟩)
      ∧ ((s.chan c).state = .lockout → (∀ i, bearsOn .lockout c (s.entry i) = false) →
        ∃ t, exec .releaseLockout s = .next t ∧ Answered s t k n ⟨.ok, 0, 0⟩
          ∧ t = { s with mem := t.mem, handler := t.handler, chans := t.chans, strikes := t.strikes
                         resolvers := t.resolvers, journal := t.journal }
          ∧ t.chan c = { s.chan c with state := .off, holdoff := none, extended := false }
          ∧ t.strike c = { s.strike c with times := [] }
          ∧ t.resolver c = { s.resolver c with ramp := none, foldback := none, floorMarks := 0 }
          ∧ Sent s t (.channel c) none false
              { time := s.now, kind := .channelChanged, channel := some c, newState := .channel .off }
          ∧ OtherChannels c s t ∧ MemoryBut (slotBytes k) s t)

/-- R131, R132: ENABLE_POSITION and DISABLE_POSITION of a position that may take them, with the count sent (R130),
and the order of ENABLE_POSITION's checks. -/
def Obligations.PositionsGoInAndOutOfService : Prop :=
  ∀ (s : State) (k : SlotIx) (n w1 w2 w3 : Nat),
    (Offered s k n 9 w1 w2 w3 →
      (24 ≤ w1 → ∃ t, exec .enablePosition s = .next t ∧ Answered s t k n ⟨.badArgument, 0, 0⟩)
      ∧ ∀ p : PositionIx, w1 = p.val →
        ((s.chan (channelOf p)).profile = none →
          ∃ t, exec .enablePosition s = .next t ∧ Answered s t k n ⟨.noProfile, 0, 0⟩)
        ∧ ∀ f, (s.chan (channelOf p)).profile = some f →
          (f.installed.testBit (p.val % 6) = false →
            ∃ t, exec .enablePosition s = .next t ∧ Answered s t k n ⟨.notInstalled, 0, 0⟩)
          ∧ (f.installed.testBit (p.val % 6) = true → tripBearing p s = true →
            ∃ t, exec .enablePosition s = .next t ∧ Answered s t k n ⟨.stillActive, 0, 0⟩)
          ∧ (f.installed.testBit (p.val % 6) = true → tripBearing p s = false →
              (s.position p).state ≠ .disabled → (s.position p).state ≠ .tripped →
            ∃ t, exec .enablePosition s = .next t ∧ Answered s t k n ⟨.wrongState, 0, 0⟩)
          ∧ (f.installed.testBit (p.val % 6) = true → tripBearing p s = false →
              ((s.position p).state = .disabled ∨ (s.position p).state = .tripped) →
            ∃ t, exec .enablePosition s = .next t ∧ Answered s t k n ⟨.ok, 0, 0⟩
              ∧ t = { s with mem := t.mem, handler := t.handler, positions := t.positions, links := t.links
                             journal := t.journal }
              ∧ t.position p = { s.position p with state := .active, bias := true }
              ∧ (∀ q, q ≠ p → t.position q = s.position q)
              ∧ activeCount t (channelOf p) = activeCount s (channelOf p) + 1
              ∧ t.link (channelOf p) = { s.link (channelOf p) with
                  counts := (s.link (channelOf p)).counts ++ [activeCount s (channelOf p) + 1] }
              ∧ Sent s t .positions none false
                  { time := s.now, kind := .positionChanged, channel := some (channelOf p), position := some p
                    newState := .position .active }
              ∧ OtherChannels (channelOf p) s t ∧ MemoryBut (slotBytes k) s t))
    ∧ (Offered s k n 10 w1 w2 w3 →
      (24 ≤ w1 → ∃ t, exec .disablePosition s = .next t ∧ Answered s t k n ⟨.badArgument, 0, 0⟩)
      ∧ ∀ p : PositionIx, w1 = p.val →
        ((s.position p).state ≠ .active → (s.position p).state ≠ .tripped →
          ∃ t, exec .disablePosition s = .next t ∧ Answered s t k n ⟨.wrongState, 0, 0⟩)
        ∧ ((s.position p).state = .active ∨ (s.position p).state = .tripped →
          ∃ t, exec .disablePosition s = .next t ∧ Answered s t k n ⟨.ok, 0, 0⟩
            ∧ t = { s with mem := t.mem, handler := t.handler, positions := t.positions, links := t.links
                           journal := t.journal }
            ∧ t.position p = { s.position p with state := .disabled, bias := false }
            ∧ (∀ q, q ≠ p → t.position q = s.position q)
            ∧ t.link (channelOf p) = { s.link (channelOf p) with
                counts := (s.link (channelOf p)).counts ++
                  if (s.position p).state = .active then [activeCount s (channelOf p) - 1] else [] }
            ∧ Sent s t .positions none false
                { time := s.now, kind := .positionChanged, channel := some (channelOf p), position := some p
                  newState := .position .disabled }
            ∧ OtherChannels (channelOf p) s t ∧ MemoryBut (slotBytes k) s t))

/-- R147, R148: HOLD_CAPTURE and RELEASE_CAPTURE. -/
def Obligations.CapturesAreHeldAndReleased : Prop :=
  ∀ (s : State) (k : SlotIx) (n kind w1 w2 w3 : Nat), (kind = 11 ∨ kind = 12) → Offered s k n kind w1 w2 w3 →
    (4 ≤ w1 → ∃ t, exec (requestCommand (kindOf kind)) s = .next t ∧ Answered s t k n ⟨.badArgument, 0, 0⟩)
    ∧ ∀ b : BufferIx, w1 = b.val →
      ((s.buffer b).state = .free ∨ (s.buffer b).state = .filling →
        ∃ t, exec (requestCommand (kindOf kind)) s = .next t ∧ Answered s t k n ⟨.wrongState, 0, 0⟩)
      ∧ ((s.buffer b).state = .ready ∨ (s.buffer b).state = .held →
          (s.buffer b).sequence.toNat ≠ w2 + 65536 * w3 →
        ∃ t, exec (requestCommand (kindOf kind)) s = .next t ∧ Answered s t k n ⟨.gone, 0, 0⟩)
      ∧ ((s.buffer b).state = .ready ∨ (s.buffer b).state = .held →
          (s.buffer b).sequence.toNat = w2 + 65536 * w3 →
        ∃ t, exec (requestCommand (kindOf kind)) s = .next t ∧ Answered s t k n ⟨.ok, 0, 0⟩
          ∧ (kind = 11 → exec .holdCapture s = .next t) ∧ (kind = 12 → exec .releaseCapture s = .next t)
          ∧ t = { s with mem := t.mem, handler := t.handler, captures := t.captures }
          ∧ t.buffer b = { s.buffer b with state := if kind = 11 then .held else .free }
          ∧ (∀ a, a ≠ b → t.buffer a = s.buffer a) ∧ t.captures.postCounts = s.captures.postCounts
          ∧ (¬(kind = 11 ∧ (s.buffer b).state = .held) →
              readNum t.mem (Config.captureHeaderBase + 32 * b.val) 2 = if kind = 11 then 3 else 0)
          ∧ MemoryBut (fun a => slotBytes k a ∨ headerBytes b a) s t)

/-! ## Sample arrivals and protection conditions -/

/-- R2, R3, R14: what an arrival writes at the Input Scanner, and all that it can touch. The input is any integer:
log 26. -/
def Obligations.ArrivalsWriteTheirPoint : Prop :=
  ∀ (p : Point) (input : Int) (order : List EntryIx) (s : State),
    (running s = false → exec (.sampleArrival p input order) s = .next s)
    ∧ (running s = true → ∃ t, exec (.sampleArrival p input order) s = .next t
      ∧ t = { s with mem := t.mem, scanner := t.scanner, evaluator := t.evaluator, captures := t.captures
                     journal := t.journal, links := t.links, trips := t.trips }
      ∧ t.scanner = { s.scanner with latest := t.scanner.latest, previous := t.scanner.previous
                                     arrived := t.scanner.arrived, rings := t.scanner.rings }
      ∧ look t.scanner.latest p = (if input < 0 then 0 else if 4095 < input then 4095 else input.toNat)
      ∧ look t.scanner.previous p =
          (if look s.scanner.arrived p = true then look s.scanner.latest p else look t.scanner.latest p)
      ∧ look t.scanner.arrived p = true
      ∧ (∀ q, q ≠ p → look t.scanner.latest q = look s.scanner.latest q
          ∧ look t.scanner.previous q = look s.scanner.previous q
          ∧ look t.scanner.arrived q = look s.scanner.arrived q)
      ∧ ∀ j : CapturedIx, look t.scanner.rings j =
          if p.val = [84, 85, 73, 76, 79, 82].getD j.val 96 then
            ⟨put (look s.scanner.rings j).slots (look s.scanner.rings j).index (look t.scanner.latest p),
              (look s.scanner.rings j).index + 1⟩
          else look s.scanner.rings j)

/-- R144, R145: the post-trigger fill. -/
def Obligations.ArrivalsFillTheCapture : Prop :=
  ∀ (p : Point) (input : Int) (order : List EntryIx) (s : State), running s = true →
    (((∀ b, (s.buffer b).state ≠ .filling) ∨ p.val ∉ [84, 85, 73, 76, 79, 82]) →
      ∃ t, exec (.sampleArrival p input order) s = .next t ∧ t.captures = s.captures ∧ t.mem = s.mem)
    ∧ ∀ (b : BufferIx) (j : CapturedIx), (s.buffer b).state = .filling → (∀ a, (s.buffer a).state = .filling → a = b) →
      p.val = [84, 85, 73, 76, 79, 82].getD j.val 96 →
      (64 ≤ look s.captures.postCounts j →
        ∃ t, exec (.sampleArrival p input order) s = .next t ∧ t.captures = s.captures ∧ t.mem = s.mem)
      ∧ (look s.captures.postCounts j < 64 →
        ∃ t, exec (.sampleArrival p input order) s = .next t
          ∧ t.captures.postCounts = put s.captures.postCounts j (look s.captures.postCounts j + 1)
          ∧ (∀ a, a ≠ b → t.buffer a = s.buffer a)
          ∧ t.buffer b = { s.buffer b with
              state := if (∀ i, look t.captures.postCounts i = 64) ∧ (s.buffer b).sequence ≠ 0 then .ready
                else .filling }
          ∧ readNum t.mem (0x3000 + 1536 * b.val + 12 * (64 + look s.captures.postCounts j) + 2 * j.val) 2
              = look t.scanner.latest p
          ∧ ((t.buffer b).state = .ready → readNum t.mem (Config.captureHeaderBase + 32 * b.val) 2 = 2)
          ∧ MemoryBut (fun a => ((t.buffer b).state = .ready ∧ headerBytes b a)
              ∨ (0x3000 + 1536 * b.val + 12 * (64 + look s.captures.postCounts j) + 2 * j.val ≤ a
                ∧ a < 0x3000 + 1536 * b.val + 12 * (64 + look s.captures.postCounts j) + 2 * j.val + 2)) s t)

/-- R21: the sides of ABOVE and BELOW, and the levels that a side never reaches: an ACTIVE entry with such a clear
level stays ACTIVE until it is reloaded or cleared, or the card is reset. -/
def Obligations.AboveAndBelowSides : Prop :=
  ∀ (f : ConditionFields) (count : Nat),
    (f.enable = 1 → (compareOf f.compare = some .above ∨ compareOf f.compare = some .below) → checkCondition f = none →
      f.level1 ≤ 4095 ∧ f.level2 ≤ 4095
      ∧ (compareOf f.compare = some .above → f.level2 ≤ f.level1)
      ∧ (compareOf f.compare = some .below → f.level1 ≤ f.level2))
    ∧ (compareOf f.compare = some .above → f.level2 ≤ f.level1 →
        (sideOf f count = .set ↔ f.level1 < count) ∧ (sideOf f count = .clear ↔ count < f.level2)
        ∧ (sideOf f count = .neither ↔ f.level2 ≤ count ∧ count ≤ f.level1))
    ∧ (compareOf f.compare = some .below → f.level1 ≤ f.level2 →
        (sideOf f count = .set ↔ count < f.level1) ∧ (sideOf f count = .clear ↔ f.level2 < count)
        ∧ (sideOf f count = .neither ↔ f.level1 ≤ count ∧ count ≤ f.level2))
    ∧ (count ≤ 4095 → compareOf f.compare = some .above → f.level1 = 4095 → sideOf f count ≠ .set)
    ∧ (compareOf f.compare = some .above → f.level2 = 0 → sideOf f count ≠ .clear)
    ∧ (compareOf f.compare = some .below → f.level1 = 0 → sideOf f count ≠ .set)
    ∧ (count ≤ 4095 → compareOf f.compare = some .below → f.level2 = 4095 → sideOf f count ≠ .clear)
    ∧ ∀ (cmd : Instr) (i : EntryIx) (s t : State),
        (s.entry i).fields = f → (s.entry i).state = .active →
        ((compareOf f.compare = some .above ∧ f.level2 = 0)
          ∨ (compareOf f.compare = some .below ∧ f.level2 = 4095)) →
        exec cmd s = .next t →
        (t.entry i).state = .active ∨ cmd = .clearCondition ∨ cmd = .slotVisit ∨ (∃ o, cmd = .loadEnd o)
          ∨ (∃ b q, cmd = .powerOnReset b q) ∨ (∃ x q, cmd = .controllerReset x q)
          ∨ (∃ q, cmd = .backplaneResetRelease q) ∨ cmd = .supplyLoss

/-- R22, R23, R24: the compared quantities and the sides of OUTSIDE, RATIO_ABOVE and STEP_ABOVE. A count exactly on a
bound of OUTSIDE is on neither side, also with hysteresis 0 (the model's reading, log 33). -/
def Obligations.OutsideRatioAndStepSides : Prop :=
  ∀ (sc : Scanner) (f : ConditionFields) (p : Point),
    (compareOf f.compare = some .outside → checkCondition f = none → f.enable = 1 →
      quantity sc f p = look sc.latest p
      ∧ (sideOf f (look sc.latest p) = .set ↔ look sc.latest p < f.level1 ∨ f.level2 < look sc.latest p)
      ∧ (sideOf f (look sc.latest p) = .clear ↔
          f.level1 + f.band ≤ look sc.latest p ∧ look sc.latest p ≤ f.level2 - f.band
          ∧ look sc.latest p ≠ f.level1 ∧ look sc.latest p ≠ f.level2))
    ∧ (compareOf f.compare = some .ratioAbove → checkCondition f = none → f.enable = 1 →
        ∃ forward : Point, forward.val = f.pointB
        ∧ (look sc.latest forward < f.band → quantity sc f p = 0)
        ∧ (f.band ≤ look sc.latest forward →
            quantity sc f p = min 65535 (look sc.latest p * 1000 / look sc.latest forward))
        ∧ (sideOf f (quantity sc f p) = .set ↔ f.level1 < quantity sc f p)
        ∧ (sideOf f (quantity sc f p) = .clear ↔ quantity sc f p < f.level2))
    ∧ (compareOf f.compare = some .stepAbove → checkCondition f = none → f.enable = 1 →
        (look sc.previous p ≤ look sc.latest p → quantity sc f p + look sc.previous p = look sc.latest p)
        ∧ (look sc.latest p ≤ look sc.previous p → quantity sc f p = 0)
        ∧ (sideOf f (quantity sc f p) = .set ↔ f.level1 < quantity sc f p)
        ∧ (sideOf f (quantity sc f p) = .clear ↔ quantity sc f p < f.level2))

/-- R25 to R28: the moves of an entry, and when its action is asserted and withdrawn. -/
def Obligations.EntriesMoveBySide : Prop :=
  ∀ (e : LiveEntry), EntryLaw e →
    (∀ side, (e.take side).1.fields = e.fields ∧ EntryLaw (e.take side).1)
    ∧ (∀ side, ((e.take side).2 = .asserted ↔ e.inForce = false ∧ (e.take side).1.inForce = true)
        ∧ ((e.take side).2 = .withdrawn ↔ e.inForce = true ∧ (e.take side).1.inForce = false))
    ∧ (e.state = .disabled → ∀ side, e.take side = (e, .unchanged))
    ∧ (e.state = .normal → e.take .clear = (e, .unchanged) ∧ e.take .neither = (e, .unchanged)
        ∧ (e.fields.setCount = 1 → (e.take .set).1 = ⟨e.fields, .active, 0, false⟩)
        ∧ (e.fields.setCount ≠ 1 → (e.take .set).1 = ⟨e.fields, .arming, 1, false⟩))
    ∧ (e.state = .arming → (e.take .clear).1 = ⟨e.fields, .normal, 0, false⟩
        ∧ (e.take .neither).1 = ⟨e.fields, .normal, 0, false⟩
        ∧ (e.fields.setCount = e.count + 1 → (e.take .set).1 = ⟨e.fields, .active, 0, false⟩)
        ∧ (e.fields.setCount ≠ e.count + 1 → (e.take .set).1 = ⟨e.fields, .arming, e.count + 1, false⟩))
    ∧ (e.state = .active → e.fields.latch = 0 → e.take .set = (e, .unchanged) ∧ e.take .neither = (e, .unchanged)
        ∧ (e.fields.clearCount = 1 → (e.take .clear).1 = ⟨e.fields, .normal, 0, false⟩)
        ∧ (e.fields.clearCount ≠ 1 → (e.take .clear).1 = ⟨e.fields, .clearing, 1, false⟩))
    ∧ (e.state = .active → e.fields.latch = 1 → e.take .neither = (e, .unchanged)
        ∧ e.take .set = ({ e with clearSeen := false }, .unchanged)
        ∧ e.take .clear = ({ e with clearSeen := true }, .unchanged))
    ∧ (e.state = .clearing → (e.take .set).1 = ⟨e.fields, .active, 0, false⟩ ∧ e.take .neither = (e, .unchanged)
        ∧ (e.fields.clearCount = e.count + 1 → (e.take .clear).1 = ⟨e.fields, .normal, 0, false⟩)
        ∧ (e.fields.clearCount ≠ e.count + 1 → (e.take .clear).1 = ⟨e.fields, .clearing, e.count + 1, false⟩))

/-- R20, R30 to R35: an arrival is evaluated by the enabled entries that name its point as point A, and by no other;
each sends its record and its deliveries, in the order in which the entries are taken. The order of the entries is
an operand: log 3. R165: the records are numbered after those that the Input Scanner sent before the arrival, and each
delivery is stamped after its entry's record. The stamps are the model's own: log 14. -/
def Obligations.ArrivalsAreEvaluated : Prop :=
  ∀ (p : Point) (input : Int) (order : List EntryIx) (s : State), running s = true →
    (∀ i, i ∈ inOrder order) ∧ (inOrder order).Nodup
    ∧ ∃ t, exec (.sampleArrival p input order) s = .next t
      ∧ t.evaluator = { s.evaluator with entries := t.evaluator.entries }
      ∧ (∀ i, t.entry i = (arrivalMove t.scanner p (s.entry i)).1)
      ∧ SentAll s t .evaluator (some ⟨.scanner, s.journal.sent⟩) ((arrivalClaims t.scanner p order s).map
          (fun i => claimRecord (arrivalMove t.scanner p (s.entry i)).2 i (s.entry i).fields
            (quantity t.scanner (s.entry i).fields p) s))
      ∧ t.trips = s.trips ++ ((arrivalClaims t.scanner p order s).zipIdx s.journal.sent).filterMap (fun x =>
          claimTrip (arrivalMove t.scanner p (s.entry x.1)).2 x.1 (s.entry x.1).fields (x.2 + 1))
      ∧ ∀ c, t.link c = { s.link c with
          foldback := (s.link c).foldback ++ (arrivalClaims t.scanner p order s).filterMap (fun i =>
            claimFoldback (arrivalMove t.scanner p (s.entry i)).2 i (s.entry i).fields c)
          fromEvaluator := (s.link c).fromEvaluator
            ++ ((arrivalClaims t.scanner p order s).zipIdx s.journal.sent).filterMap (fun x =>
              (claimEvent (arrivalMove t.scanner p (s.entry x.1)).2 x.1 (s.entry x.1).fields c).map
                (fun e => ⟨e, x.2 + 1⟩)) }

/-! ## Arc lines, the interlock loop and frame marks -/

/-- R6, R7, R8: the changes of an arc line's state, and what they deliver. The spell is an operand in nanoseconds:
log 11. A change that does not fit the line's state changes nothing: log 1. The stamps of the deliveries are the
model's own: log 14. -/
def Obligations.ArcLinesChange : Prop :=
  ∀ (l : ArcLine) (spell : Nat) (s : State),
    (running s = true → 1000 ≤ spell → look s.scanner.arcAsserted l = false →
      ∃ t, exec (.arcLineAssertion l spell) s = .next t ∧ t = { s with scanner := t.scanner, links := t.links }
        ∧ t.scanner = { s.scanner with arcAsserted := put s.scanner.arcAsserted l true }
        ∧ ∀ c, t.link c = { s.link c with fromScanner := (s.link c).fromScanner ++
            (if covers s.evaluator.settings l c = true then [⟨.strike l, s.journal.sent⟩] else []) })
    ∧ (running s = true → 1000 ≤ spell → look s.scanner.arcAsserted l = true →
      ∃ t, exec (.arcLineDeassertion l spell) s = .next t ∧ t = { s with scanner := t.scanner, links := t.links }
        ∧ t.scanner = { s.scanner with arcAsserted := put s.scanner.arcAsserted l false }
        ∧ ∀ c, t.link c = { s.link c with fromScanner := (s.link c).fromScanner ++
            (if covers s.evaluator.settings l c = true then [⟨.arcCleared l, s.journal.sent⟩] else []) })
    ∧ (spell < 1000 → exec (.arcLineAssertion l spell) s = .next s ∧ exec (.arcLineDeassertion l spell) s = .next s)
    ∧ (look s.scanner.arcAsserted l = true → exec (.arcLineAssertion l spell) s = .next s)
    ∧ (look s.scanner.arcAsserted l = false → exec (.arcLineDeassertion l spell) s = .next s)

/-- R11, R12: the interlock loop. A timer's end counts as reached in the half of the counter's range that is not
ahead of it (the model's choice, log 10), and an expiry with no closure timer running changes nothing (the model's
choice, log 1). That the events are delivered before the INTERLOCK record is counted as sent, which their stamps say,
is the model's reading of R11 and R12: log 14. -/
def Obligations.InterlockFollowsTheLoop : Prop :=
  ∀ (spell : Nat) (s : State),
    (running s = true → s.scanner.interlockClosed = true → 1000 ≤ spell →
      ∃ t, exec (.interlockLoopOpening spell) s = .next t
        ∧ t = { s with scanner := t.scanner, links := t.links, journal := t.journal }
        ∧ t.scanner = { s.scanner with interlockClosed := false, closureTimer := none }
        ∧ (∀ c, t.link c = { s.link c with
            fromScanner := (s.link c).fromScanner ++ [⟨.opened, s.journal.sent⟩] })
        ∧ Sent s t .scanner none false { time := s.now, kind := .interlockOpened })
    ∧ (running s = true → s.scanner.interlockClosed = true → spell < 1000 →
        exec (.interlockLoopOpening spell) s = .next s)
    ∧ (running s = true → s.scanner.interlockClosed = false → ∃ t, exec (.interlockLoopOpening spell) s = .next t
        ∧ t = { s with scanner := { s.scanner with closureTimer := none } })
    ∧ (running s = true → s.scanner.interlockClosed = false → ∃ t, exec .interlockLoopClosing s = .next t
        ∧ t = { s with scanner := { s.scanner with closureTimer := some (s.now + 200) } })
    ∧ (∀ finish, s.scanner.interlockClosed = false → s.scanner.closureTimer = some finish →
        ((s.now - finish).toNat < 2147483648 →
          ∃ t, exec .closureTimerExpiry s = .next t
            ∧ t = { s with scanner := t.scanner, links := t.links, journal := t.journal }
            ∧ t.scanner = { s.scanner with interlockClosed := true, closureTimer := none }
            ∧ (∀ c, t.link c = { s.link c with
                fromScanner := (s.link c).fromScanner ++ [⟨.closed, s.journal.sent⟩] })
            ∧ Sent s t .scanner none false { time := s.now, kind := .interlockClosed })
        ∧ (2147483648 ≤ (s.now - finish).toNat → exec .closureTimerExpiry s = .next s))
    ∧ (s.scanner.closureTimer = none → exec .closureTimerExpiry s = .next s)

/-- R16, R17, R18: real and synthetic frame marks at the Frame Mark Monitor. The spell is an operand in nanoseconds:
log 11. The end of an interval that is not yet out changes nothing: log 1. -/
def Obligations.FrameMarksAreMonitored : Prop :=
  ∀ (c : Channel) (spell : Nat) (s : State), running s = true →
    (1000 ≤ spell → ∃ t, exec (.realMark c spell) s = .next t
      ∧ t = { s with monitors := t.monitors, links := t.links, journal := t.journal }
      ∧ t.monitor c = ⟨true, s.now, ((s.chan c).profile.map (fun p => p.markTimeout)).getD 250,
          (s.monitor c).realMarks + 1⟩
      ∧ t.link c = { s.link c with marks := (s.link c).marks + 1 }
      ∧ ((s.monitor c).present = true → t.journal = s.journal)
      ∧ ((s.monitor c).present = false → Sent s t (.monitor c) none false
          { time := s.now, kind := .frameMarkBack, channel := some c })
      ∧ OtherChannels c s t)
    ∧ (spell < 1000 → exec (.realMark c spell) s = .next s)
    ∧ ((s.monitor c).interval ≤ (s.now - (s.monitor c).lastMark).toNat →
      ∃ t, exec (.markIntervalExpiry c) s = .next t
      ∧ t = { s with monitors := t.monitors, links := t.links, journal := t.journal }
      ∧ t.monitor c = ⟨false, s.now, ((s.chan c).profile.map (fun p => p.markTimeout)).getD 250,
          (s.monitor c).realMarks⟩
      ∧ t.link c = { s.link c with marks := (s.link c).marks + 1 }
      ∧ ((s.monitor c).present = false → t.journal = s.journal)
      ∧ ((s.monitor c).present = true → Sent s t (.monitor c) none false
          { time := s.now, kind := .frameMarkLost, channel := some c })
      ∧ OtherChannels c s t)
    ∧ ((s.now - (s.monitor c).lastMark).toNat < (s.monitor c).interval →
        exec (.markIntervalExpiry c) s = .next s)

/-! ## The limit set and the work of a mark -/

/-- R111: the resolved level and the governing source. -/
def Obligations.ResolvedLevelAndSource : Prop :=
  ∀ r : DriveResolver,
    (r.ramp = none → r.foldback = none → r.positions = none → r.target = none →
      r.resolved = 0 ∧ r.governing = .none)
    ∧ (∀ x, (r.ramp = some x ∨ r.foldback = some x ∨ r.positions = some x ∨ r.target = some x) →
        r.resolved ≤ x
        ∧ (r.ramp = some r.resolved ∨ r.foldback = some r.resolved ∨ r.positions = some r.resolved
            ∨ r.target = some r.resolved)
        ∧ r.governing ≠ .none)
    ∧ (r.governing = .ramp ↔ r.ramp = some r.resolved)
    ∧ (r.governing = .foldback ↔ r.foldback = some r.resolved ∧ r.ramp ≠ some r.resolved)
    ∧ (r.governing = .positions ↔ r.positions = some r.resolved ∧ r.ramp ≠ some r.resolved
        ∧ r.foldback ≠ some r.resolved)
    ∧ (r.governing = .target ↔ r.target = some r.resolved ∧ r.ramp ≠ some r.resolved
        ∧ r.foldback ≠ some r.resolved ∧ r.positions ≠ some r.resolved)
    ∧ (∀ q : DriveResolver, q.ramp = r.ramp → q.foldback = r.foldback → q.positions = r.positions →
        q.target = r.target → q.resolved = r.resolved ∧ q.governing = r.governing)
    ∧ ∀ x, r.ramp = some x → r.target = some x → r.resolved = x → r.governing = .ramp ∧ r.rampComplete = true

/-- R100 to R102, R104, R112, R117 to R119, R121: the work of a frame mark; on an OFF channel, which has its MUTE
line asserted and does not hold the engine, it is none. With no mark delivered nothing changes: log 1. -/
def Obligations.MarksDriveTheChannel : Prop :=
  ∀ (s : State) (c : Channel),
  ((s.link c).marks = 0 → exec (.frameMark c) s = .next s)
  ∧ (∀ n, (s.link c).marks = n + 1 → (s.chan c).state = .off → (s.chan c).mute = true → s.arbiter.engine ≠ .held c →
      ∃ t, exec (.frameMark c) s = .next t ∧ t = { s with links := t.links } ∧ OtherChannels c s t
        ∧ t.link c = { s.link c with marks := n })
  ∧ ∀ (p : Profile) (n : Nat) (due : Bool), (s.link c).marks = n + 1 → (s.chan c).profile = some p →
    (due = true ↔ s.arbiter.engine = .held c
      ∧ (s.arbiter.steps = 0 ∨ p.rampSpacing ≤ (s.now - s.arbiter.lastStep).toNat)) →
    ∃ t, exec (.frameMark c) s = .next t
      ∧ t = { s with resolvers := t.resolvers, arbiter := t.arbiter, links := t.links }
      ∧ OtherChannels c s t
      ∧ t.arbiter = (if due = true then
          { s.arbiter with steps := min 65535 (s.arbiter.steps + 1), lastStep := s.now } else s.arbiter)
      ∧ (t.resolver c).target = (s.resolver c).target ∧ (t.resolver c).positions = (s.resolver c).positions
      ∧ (t.resolver c).activeSet = (s.resolver c).activeSet
      ∧ (t.resolver c).ramp = (if due = true then
          (s.resolver c).ramp.map (fun x => min 1000 (x + p.rampStep)) else (s.resolver c).ramp)
      ∧ ((s.chan c).state = .off → (t.resolver c).foldback = (s.resolver c).foldback
          ∧ (t.resolver c).floorMarks = (s.resolver c).floorMarks ∧ (t.link c).exhausted = (s.link c).exhausted)
      ∧ ((s.chan c).state ≠ .off → (s.resolver c).activeSet ≠ [] →
          (t.resolver c).foldback =
              some (max ((s.resolver c).foldback.getD 1000 - p.foldbackStep) p.foldbackFloor)
          ∧ ((s.resolver c).foldback ≠ some p.foldbackFloor ∨ p.escalation = 0 →
              (t.resolver c).floorMarks = (s.resolver c).floorMarks ∧ (t.link c).exhausted = (s.link c).exhausted)
          ∧ ((s.resolver c).foldback = some p.foldbackFloor → p.escalation ≠ 0 →
              (s.resolver c).floorMarks + 1 ≠ p.escalation →
              (t.resolver c).floorMarks = (s.resolver c).floorMarks + 1
              ∧ (t.link c).exhausted = (s.link c).exhausted)
          ∧ ((s.resolver c).foldback = some p.foldbackFloor → p.escalation ≠ 0 →
              (s.resolver c).floorMarks + 1 = p.escalation →
              (t.resolver c).floorMarks = 0 ∧ (t.link c).exhausted = (s.link c).exhausted + 1))
      ∧ ((s.chan c).state ≠ .off → (s.resolver c).activeSet = [] → (t.link c).exhausted = (s.link c).exhausted
          ∧ ((s.resolver c).foldback = none →
              (t.resolver c).foldback = none ∧ (t.resolver c).floorMarks = (s.resolver c).floorMarks)
          ∧ (∀ x, (s.resolver c).foldback = some x →
              (t.resolver c).floorMarks = 0
              ∧ (t.resolver c).foldback = if 1000 ≤ x + p.recoveryStep then none else some (x + p.recoveryStep)))
      ∧ ((s.chan c).mute = true → (t.resolver c).drive = (s.resolver c).drive)
      ∧ ((s.chan c).mute = false → (t.resolver c).drive = (t.resolver c).resolved)
      ∧ t.link c = { s.link c with
          marks := n, exhausted := (t.link c).exhausted
          completions := (s.link c).completions +
            if s.arbiter.engine = .held c ∧ (t.resolver c).rampComplete = true then 1 else 0
          reports := (s.link c).reports +
            if due = true ∧ p.group = 1 ∧ (t.resolver c).rampComplete = false then 1 else 0 }

/-- R115, R116: what the Drive Resolver takes from the Position Monitor and from the Evaluator. With no such
delivery next nothing changes: log 1. A ceiling equal to the one present makes no completion test: log 32;
that a raised one makes it is the model's choice: log 36. -/
def Obligations.DriveResolverTakesDeliveries : Prop :=
  ∀ (s : State) (c : Channel),
    (∀ n rest p, (s.link c).counts = n :: rest → (s.chan c).profile = some p →
      ∃ t, exec (.positionCount c) s = .next t ∧ t = { s with resolvers := t.resolvers, links := t.links }
        ∧ OtherChannels c s t
        ∧ t.resolver c = { s.resolver c with positions := some (ceilingFor p n), drive := (t.resolver c).drive }
        ∧ ((s.resolver c).positions ≠ some (ceilingFor p n) → (s.chan c).mute = false →
            (t.resolver c).drive = min (s.resolver c).drive (t.resolver c).resolved)
        ∧ ((s.resolver c).positions = some (ceilingFor p n) ∨ (s.chan c).mute = true →
            (t.resolver c).drive = (s.resolver c).drive)
        ∧ t.link c = { s.link c with
            counts := rest
            completions := (s.link c).completions +
              if (s.resolver c).positions ≠ some (ceilingFor p n) ∧ s.arbiter.engine = .held c
                ∧ (t.resolver c).rampComplete = true then 1 else 0 })
    ∧ (∀ e rest, (s.link c).foldback = .join e :: rest →
      ∃ t, exec (.foldbackJoin c) s = .next t ∧ t = { s with resolvers := t.resolvers, links := t.links }
        ∧ OtherChannels c s t ∧ t.link c = { s.link c with foldback := rest }
        ∧ t.resolver c = { s.resolver c with activeSet := (t.resolver c).activeSet }
        ∧ ((s.resolver c).activeSet.Nodup → (t.resolver c).activeSet.Nodup)
        ∧ ∀ d, d ∈ (t.resolver c).activeSet ↔ d = e ∨ d ∈ (s.resolver c).activeSet)
    ∧ (∀ e rest, (s.link c).foldback = .leave e :: rest →
      ∃ t, exec (.foldbackLeave c) s = .next t ∧ t = { s with resolvers := t.resolvers, links := t.links }
        ∧ OtherChannels c s t ∧ t.link c = { s.link c with foldback := rest }
        ∧ t.resolver c = { s.resolver c with activeSet := (t.resolver c).activeSet }
        ∧ ((s.resolver c).activeSet.Nodup → (t.resolver c).activeSet.Nodup)
        ∧ ∀ d, d ∈ (t.resolver c).activeSet ↔ d ≠ e ∧ d ∈ (s.resolver c).activeSet)
    ∧ ((s.link c).counts = [] → exec (.positionCount c) s = .next s)
    ∧ (∀ n rest, (s.link c).counts = n :: rest → (s.chan c).profile = none →
      ∃ t, exec (.positionCount c) s = .next t ∧ t = { s with links := t.links } ∧ OtherChannels c s t
        ∧ t.link c = { s.link c with counts := rest })
    ∧ ((∀ e, (s.link c).foldback.head? ≠ some (.join e)) → exec (.foldbackJoin c) s = .next s)
    ∧ ((∀ e, (s.link c).foldback.head? ≠ some (.leave e)) → exec (.foldbackLeave c) s = .next s)

/-! ## The engine -/

/-- R55, R98: the grant is taken in QUEUED and PAUSED, and handed back in every other state. With no grant on its
way to the channel nothing changes: log 1. -/
def Obligations.GrantIsTaken : Prop :=
  ∀ (s : State) (c : Channel),
    (s.arbiter.engine = .granted c → (s.chan c).state = .queued ∨ (s.chan c).state = .paused →
      ∃ t, exec (.grantTaken c) s = .next t
        ∧ t = { s with chans := t.chans, resolvers := t.resolvers, arbiter := t.arbiter, journal := t.journal }
        ∧ OtherChannels c s t
        ∧ t.chan c = { s.chan c with
            state := .ramping, mute := if (s.chan c).state = .queued then false else (s.chan c).mute }
        ∧ t.resolver c = { s.resolver c with
            ramp := if (s.chan c).state = .queued then some 0 else (s.resolver c).ramp }
        ∧ t.arbiter = { s.arbiter with
            high := without c s.arbiter.high, low := without c s.arbiter.low
            engine := .held c, steps := 0, preemptionSent := false }
        ∧ Sent s t (.channel c) none false
            { time := s.now, kind := .channelChanged, channel := some c, newState := .channel .ramping
              strikeCount := (s.strike c).times.length })
    ∧ (s.arbiter.engine = .granted c → (s.chan c).state ≠ .queued → (s.chan c).state ≠ .paused →
        exec (.grantTaken c) s = .next { s with arbiter := { s.arbiter with
          engine := grantFrom .free s.arbiter.high s.arbiter.low } })
    ∧ (s.arbiter.engine ≠ .granted c → exec (.grantTaken c) s = .next s)

/-- R56, R57, R104, R105: completions, preemptions and step reports. A stale completion, preemption or report is
taken as the channel then stands, and a HIGH channel is neither tested nor preempted: log 19. -/
def Obligations.EngineHolderIsServed : Prop :=
  ∀ (s : State) (c : Channel) (n : Nat),
    ((s.link c).completions = n + 1 → (s.chan c).state = .ramping →
      ∃ t, exec (.rampCompletion c) s = .next t
        ∧ t = { s with chans := t.chans, resolvers := t.resolvers, arbiter := t.arbiter, journal := t.journal
                       links := t.links }
        ∧ OtherChannels c s t ∧ t.link c = { s.link c with completions := n }
        ∧ t.chan c = { s.chan c with state := .on }
        ∧ t.resolver c = { s.resolver c with ramp := none, drive := (t.resolver c).drive }
        ∧ ((s.chan c).mute = false →
            (t.resolver c).drive = min (s.resolver c).drive (t.resolver c).resolved)
        ∧ t.arbiter = { s.arbiter with
            engine := grantFrom (releasedBy c s.arbiter.engine) s.arbiter.high s.arbiter.low }
        ∧ Sent s t (.channel c) none false
            { time := s.now, kind := .restored, channel := some c, newState := .channel .on
              strikeCount := (s.strike c).times.length })
    ∧ ((s.link c).completions = n + 1 → (s.chan c).state ≠ .ramping →
        ∃ t, exec (.rampCompletion c) s = .next t ∧ t = { s with links := t.links } ∧ OtherChannels c s t
          ∧ t.link c = { s.link c with completions := n })
    ∧ (∀ p, (s.link c).preemptions = n + 1 → (s.chan c).state = .ramping → (s.chan c).profile = some p →
        p.group = 1 →
      ∃ t, exec (.preemption c) s = .next t
        ∧ t = { s with chans := t.chans, arbiter := t.arbiter, journal := t.journal, links := t.links }
        ∧ OtherChannels c s t ∧ t.link c = { s.link c with preemptions := n }
        ∧ t.chan c = { s.chan c with state := .paused }
        ∧ t.arbiter = { s.arbiter with
            low := c :: s.arbiter.low
            engine := grantFrom (releasedBy c s.arbiter.engine) s.arbiter.high (c :: s.arbiter.low) }
        ∧ Sent s t (.channel c) none false
            { time := s.now, kind := .channelChanged, channel := some c, newState := .channel .paused
              strikeCount := (s.strike c).times.length })
    ∧ ((s.link c).preemptions = n + 1 →
        (s.chan c).state ≠ .ramping ∨ (∀ p, (s.chan c).profile = some p → p.group ≠ 1) →
        ∃ t, exec (.preemption c) s = .next t ∧ t = { s with links := t.links } ∧ OtherChannels c s t
          ∧ t.link c = { s.link c with preemptions := n })
    ∧ ((s.link c).reports = n + 1 →
        ∃ (t : State) (due : Bool), exec (.stepReport c) s = .next t
          ∧ (due = true ↔ s.arbiter.engine = .held c ∧ (∃ p, (s.chan c).profile = some p ∧ p.group = 1)
              ∧ s.arbiter.preemptionSent = false
              ∧ s.evaluator.settings.preemptHold ≠ 0 ∧ s.evaluator.settings.preemptHold ≤ s.arbiter.steps
              ∧ s.arbiter.high ≠ [])
          ∧ t = { s with arbiter := t.arbiter, links := t.links } ∧ OtherChannels c s t
          ∧ t.arbiter = { s.arbiter with preemptionSent := s.arbiter.preemptionSent || due }
          ∧ t.link c = { s.link c with
              reports := n, preemptions := (s.link c).preemptions + if due = true then 1 else 0 })

/-! ## Strikes, lockouts, the interlock, holdoff and confirmation -/

/-- R59, R60, R63, R78: a live strike. The record has the time of the strike and waits for its capture: log 12. Its
causality stamp is the model's own: log 14. -/
def Obligations.LiveStrikesAreTaken : Prop :=
  ∀ (s : State) (c : Channel) (link : StrikeLink) (p : Profile) (cause : Cause) (after : Option Stamp)
      (left : ChannelLinks),
    nextStrike s c link = some (cause, after, left) → (s.chan c).profile = some p → (s.chan c).state.live = true →
    ∃ (t : State) (locked : Bool), exec (.strike c link) s = .next t
      ∧ (locked = true ↔ (recentStrikes s c p).length + 1 = p.lockoutThreshold)
      ∧ t = { s with chans := t.chans, strikes := t.strikes, resolvers := t.resolvers, arbiter := t.arbiter
                     journal := t.journal, links := t.links }
      ∧ OtherChannels c s t ∧ t.link c = left
      ∧ (t.chan c).state = (if locked = true then .lockout else .holdoff)
      ∧ (t.chan c).profile = some p ∧ (t.chan c).mute = true
      ∧ (locked = false → (t.chan c).holdoff = some (s.now + BitVec.ofNat 32 p.holdoffTime)
          ∧ (t.chan c).extended = false)
      ∧ (locked = true → (t.chan c).holdoff = (s.chan c).holdoff ∧ (t.chan c).extended = (s.chan c).extended)
      ∧ t.strike c = { s.strike c with times := recentStrikes s c p ++ [s.now] }
      ∧ t.resolver c = { s.resolver c with drive := 0, ramp := none }
      ∧ t.arbiter = { s.arbiter with
          high := without c s.arbiter.high, low := without c s.arbiter.low
          engine := grantFrom (releasedBy c s.arbiter.engine) (without c s.arbiter.high) (without c s.arbiter.low) }
      ∧ Sent s t (.channel c) after (match cause with | .condition _ capture => capture | _ => true)
          { time := s.now, kind := .strike, channel := some c
            condition := match cause with | .condition e _ => some e | _ => none
            line := match cause with | .arcLine l => some l | _ => none
            newState := .channel (if locked = true then .lockout else .holdoff)
            strikeCount := (recentStrikes s c p).length + 1 }

/-- R61, R62: a strike in HOLDOFF, QUEUED or CONFIRM_WAIT is a muted strike, and one in OFF, LOCKOUT or INTERLOCKED
has no effect. The record's causality stamp is the model's own: log 14. -/
def Obligations.OtherStrikesAreTaken : Prop :=
  ∀ (s : State) (c : Channel) (link : StrikeLink) (cause : Cause) (after : Option Stamp) (left : ChannelLinks),
    nextStrike s c link = some (cause, after, left) →
    (∀ p, (s.chan c).profile = some p →
      ((s.chan c).state = .holdoff ∨ (s.chan c).state = .queued ∨ (s.chan c).state = .confirmWait) →
      ∃ t, exec (.strike c link) s = .next t
        ∧ t = { s with chans := t.chans, journal := t.journal, links := t.links }
        ∧ OtherChannels c s t ∧ t.link c = left
        ∧ t.chan c = (if (s.chan c).state = .holdoff then
            { s.chan c with holdoff := some (s.now + BitVec.ofNat 32 p.holdoffTime), extended := false }
          else s.chan c)
        ∧ Sent s t (.channel c) after false
            { time := s.now, kind := .mutedStrike, channel := some c
              condition := match cause with | .condition e _ => some e | _ => none
              line := match cause with | .arcLine l => some l | _ => none
              newState := .channel (s.chan c).state, strikeCount := (s.strike c).times.length })
    ∧ ((s.chan c).state = .off ∨ (s.chan c).state = .lockout ∨ (s.chan c).state = .interlocked →
      ∃ t, exec (.strike c link) s = .next t ∧ t = { s with links := t.links } ∧ OtherChannels c s t
        ∧ t.link c = left)

/-- R68, R69, R88: a lockout action takes a channel to LOCKOUT, and an opening takes it to INTERLOCKED, out of
whatever it was doing. A LOCKOUT record that waits for its capture: log 12. The causality stamp is the model's own:
log 14. -/
def Obligations.LockoutsAndOpeningsAreTaken : Prop :=
  ∀ (s : State) (c : Channel) (cmd : Instr) (left : ChannelLinks) (goal : ChannelState) (after : Option Stamp)
      (awaits : Bool) (r : Record),
    ((∃ e capture sent rest, cmd = .lockoutAction c
        ∧ (s.link c).fromEvaluator = ⟨.lockout e capture, sent⟩ :: rest
        ∧ left = { s.link c with fromEvaluator := rest } ∧ goal = .lockout ∧ after = some ⟨.evaluator, sent⟩
        ∧ awaits = ((s.chan c).state.live && capture)
        ∧ r = { time := s.now, kind := .lockout, channel := some c, condition := some e
                newState := .channel .lockout, strikeCount := (s.strike c).times.length
                withdrawn := (s.strike c).pending })
      ∨ (∃ sent rest, cmd = .interlockOpenedEvent c
        ∧ (s.link c).fromScanner = ⟨.opened, sent⟩ :: rest
        ∧ left = { s.link c with fromScanner := rest } ∧ goal = .interlocked ∧ after = some ⟨.scanner, sent⟩
        ∧ awaits = false
        ∧ r = { time := s.now, kind := .channelChanged, channel := some c
                newState := .channel .interlocked, strikeCount := (s.strike c).times.length
                withdrawn := (s.strike c).pending })) →
    (((s.chan c).state = .off ∨ (s.chan c).state = .lockout
        ∨ ((s.chan c).state = .interlocked ∧ goal = .interlocked)) →
      ∃ t, exec cmd s = .next t ∧ t = { s with links := t.links } ∧ OtherChannels c s t ∧ t.link c = left)
    ∧ (¬((s.chan c).state = .off ∨ (s.chan c).state = .lockout
        ∨ ((s.chan c).state = .interlocked ∧ goal = .interlocked)) →
      ∃ t, exec cmd s = .next t
        ∧ t = { s with mem := t.mem, chans := t.chans, strikes := t.strikes, resolvers := t.resolvers
                       arbiter := t.arbiter, journal := t.journal, links := t.links }
        ∧ OtherChannels c s t ∧ t.link c = left
        ∧ t.chan c = { s.chan c with state := goal, mute := true, holdoff := none, extended := false }
        ∧ t.strike c = { s.strike c with
            pending := false, timer := if (s.strike c).pending = true then none else (s.strike c).timer }
        ∧ t.resolver c = { s.resolver c with drive := 0, ramp := none }
        ∧ t.arbiter = { s.arbiter with
            high := without c s.arbiter.high, low := without c s.arbiter.low
            engine := grantFrom (releasedBy c s.arbiter.engine) (without c s.arbiter.high)
              (without c s.arbiter.low) }
        ∧ Sent s t (.channel c) after awaits r
        ∧ MemoryBut (fun a => (s.strike c).pending = true ∧ confirmationBytes c a) s t
        ∧ ((s.strike c).pending = true → readNum t.mem (Config.confirmationBase + 16 * c.val) 2 = 0))

/-- R63 to R65: a holdoff timer that has run out extends the holdoff while a cause holds the channel, and otherwise
ends it with the verdict. The timer's end counts as reached as log 10 says. -/
def Obligations.HoldoffExpires : Prop :=
  ∀ (s : State) (c : Channel) (p : Profile) (finish : Time), (s.chan c).profile = some p →
    (s.chan c).state = .holdoff → (s.chan c).holdoff = some finish →
    (2147483648 ≤ (s.now - finish).toNat → exec (.holdoffExpiry c) s = .next s)
    ∧ ((s.now - finish).toNat < 2147483648 →
      ((∃ l, arcHolds s l c = true) ∨ (∃ i, bearsOn .strike c (s.entry i) = true) →
        ∃ (t : State) (line : Option ArcLine) (e : Option EntryIx), exec (.holdoffExpiry c) s = .next t
          ∧ t = { s with chans := t.chans, journal := t.journal } ∧ OtherChannels c s t
          ∧ t.chan c = { s.chan c with holdoff := none, extended := true }
          ∧ (∀ l, line = some l ↔ arcHolds s l c = true ∧ ∀ m, m < l → arcHolds s m c = false)
          ∧ (∀ i, e = some i ↔ bearsOn .strike c (s.entry i) = true
              ∧ ∀ j, j < i → bearsOn .strike c (s.entry j) = false)
          ∧ Sent s t (.channel c) none false
              { time := s.now, kind := .channelChanged, channel := some c, condition := e, line := line
                newState := .channel .holdoff, strikeCount := (s.strike c).times.length, extended := true })
      ∧ ((∀ l, arcHolds s l c = false) → (∀ i, bearsOn .strike c (s.entry i) = false) →
        ∃ t, exec (.holdoffExpiry c) s = .next t
          ∧ t = { s with mem := t.mem, chans := t.chans, strikes := t.strikes, arbiter := t.arbiter
                         journal := t.journal }
          ∧ OtherChannels c s t
          ∧ t.chan c = { s.chan c with state := (t.chan c).state, holdoff := none, extended := false }
          ∧ Judged s t c p (s.chan c).extended none))

/-- R66, R70: an arc cleared or condition cleared event ends an extended holdoff that no cause holds any longer, and
an interlock closed event brings an INTERLOCKED channel back; each has no effect otherwise. The causality stamp is
the model's own: log 14. -/
def Obligations.ClearingsAndClosuresAreTaken : Prop :=
  ∀ (s : State) (c : Channel) (cmd : Instr) (left : ChannelLinks) (after : Option Stamp)
      (ends extended : Bool),
    ((∃ l sent rest, cmd = .arcCleared c ∧ (s.link c).fromScanner = ⟨.arcCleared l, sent⟩ :: rest
        ∧ left = { s.link c with fromScanner := rest } ∧ after = some ⟨.scanner, sent⟩ ∧ extended = true
        ∧ (ends = true ↔ (s.chan c).state = .holdoff ∧ (s.chan c).extended = true
            ∧ (∀ l, arcHolds s l c = false) ∧ ∀ i, bearsOn .strike c (s.entry i) = false))
      ∨ (∃ e sent rest, cmd = .conditionClearedEvent c
        ∧ (s.link c).fromEvaluator = ⟨.conditionCleared e, sent⟩ :: rest
        ∧ left = { s.link c with fromEvaluator := rest } ∧ after = some ⟨.evaluator, sent⟩ ∧ extended = true
        ∧ (ends = true ↔ (s.chan c).state = .holdoff ∧ (s.chan c).extended = true
            ∧ (∀ l, arcHolds s l c = false) ∧ ∀ i, bearsOn .strike c (s.entry i) = false))
      ∨ (∃ sent rest, cmd = .interlockClosedEvent c ∧ (s.link c).fromScanner = ⟨.closed, sent⟩ :: rest
        ∧ left = { s.link c with fromScanner := rest } ∧ after = some ⟨.scanner, sent⟩ ∧ extended = false
        ∧ (ends = true ↔ (s.chan c).state = .interlocked))) →
    (ends = false →
      ∃ t, exec cmd s = .next t ∧ t = { s with links := t.links } ∧ OtherChannels c s t ∧ t.link c = left)
    ∧ (∀ p, (s.chan c).profile = some p → ends = true →
      ∃ t, exec cmd s = .next t
        ∧ t = { s with mem := t.mem, chans := t.chans, strikes := t.strikes, arbiter := t.arbiter
                       journal := t.journal, links := t.links }
        ∧ OtherChannels c s t ∧ t.link c = left
        ∧ (extended = true →
            t.chan c = { s.chan c with state := (t.chan c).state, holdoff := none, extended := false })
        ∧ (extended = false → t.chan c = { s.chan c with state := (t.chan c).state })
        ∧ Judged s t c p extended after)

/-- R86: the confirmation timer runs out. Its end counts as reached as log 10 says. -/
def Obligations.ConfirmationExpires : Prop :=
  ∀ (s : State) (c : Channel) (finish : Time), (s.strike c).pending = true → (s.strike c).timer = some finish →
    ((s.now - finish).toNat < 2147483648 →
      ∃ t, exec (.confirmationExpiry c) s = .next t
        ∧ t = { s with mem := t.mem, chans := t.chans, strikes := t.strikes, journal := t.journal }
        ∧ OtherChannels c s t
        ∧ t.chan c = { s.chan c with state := .lockout }
        ∧ t.strike c = { s.strike c with pending := false, timer := none }
        ∧ readNum t.mem (Config.confirmationBase + 16 * c.val) 2 = 0
        ∧ Sent s t (.channel c) none false
            { time := s.now, kind := .confirmExpired, channel := some c, newState := .channel .lockout
              strikeCount := (s.strike c).times.length }
        ∧ MemoryBut (confirmationBytes c) s t)
    ∧ (2147483648 ≤ (s.now - finish).toNat → exec (.confirmationExpiry c) s = .next s)

/-! ## Positions -/

/-- R126, R128: the presence line, the presence timer and the loss of a module. The spell is an operand in
nanoseconds: log 11. A change to the level the line has changes nothing: log 1. The timer's end counts as reached as
log 10 says. -/
def Obligations.ModulesComeAndGo : Prop :=
  ∀ (s : State) (p : PositionIx),
    (∀ (active : Bool) (spell : Nat),
      (spell < 1000000 ∨ (s.position p).presence = active → exec (.presenceChange p active spell) s = .next s)
      ∧ (running s = true → 1000000 ≤ spell → (s.position p).presence ≠ active →
        ((s.position p).state = .empty → ∃ t, exec (.presenceChange p active spell) s = .next t
          ∧ t = { s with positions := t.positions } ∧ (∀ q, q ≠ p → t.position q = s.position q)
          ∧ t.position p = { s.position p with
              presence := active, presenceTimer := if active = true then some (s.now + 100) else none })
        ∧ ((s.position p).state ≠ .empty → active = true → ∃ t, exec (.presenceChange p active spell) s = .next t
          ∧ t = { s with positions := t.positions } ∧ (∀ q, q ≠ p → t.position q = s.position q)
          ∧ t.position p = { s.position p with presence := true })
        ∧ ((s.position p).state ≠ .empty → active = false → ∃ t, exec (.presenceChange p active spell) s = .next t
          ∧ t = { s with positions := t.positions, links := t.links, journal := t.journal }
          ∧ (∀ q, q ≠ p → t.position q = s.position q)
          ∧ t.position p = { s.position p with
              state := .empty, identity := 0xFF, bias := false, presence := false, read := none }
          ∧ OtherChannels (channelOf p) s t
          ∧ t.link (channelOf p) = { s.link (channelOf p) with
              counts := (s.link (channelOf p)).counts ++
                if (s.position p).state = .active then [activeCount s (channelOf p) - 1] else [] }
          ∧ Sent s t .positions none false
              { time := s.now, kind := .positionChanged, channel := some (channelOf p), position := some p
                newState := .position .empty })))
    ∧ (∀ finish, (s.position p).presenceTimer = some finish → (s.position p).state = .empty →
        ((s.now - finish).toNat < 2147483648 → ∃ t, exec (.presenceTimerEnd p) s = .next t
          ∧ t = { s with positions := t.positions } ∧ (∀ q, q ≠ p → t.position q = s.position q)
          ∧ t.position p = { s.position p with
              state := .identifying, identity := 0xFF, bias := false, presenceTimer := none
              read := some (s.now + 40) })
        ∧ (2147483648 ≤ (s.now - finish).toNat → exec (.presenceTimerEnd p) s = .next s))

/-- R127, R129, R133: the end of an identity read, and a trip. The read's end counts as reached as log 10 says. The
stamp of a trip is the model's own: log 14. -/
def Obligations.ModulesAreIdentifiedAndTripped : Prop :=
  ∀ (s : State) (p : PositionIx),
    (∀ (finish : Time) (code : Option Byte), (s.position p).read = some finish →
      (s.position p).state = .identifying →
      ((s.now - finish).toNat < 2147483648 → ∃ (t : State) (st : PositionState),
        exec (.identityReadEnd p code) s = .next t
        ∧ t = { s with positions := t.positions, journal := t.journal }
        ∧ (∀ q, q ≠ p → t.position q = s.position q)
        ∧ t.position p = { s.position p with
            state := st, identity := code.getD 0xFF, bias := false, read := none }
        ∧ ((s.chan (channelOf p)).profile = none → st = .disabled)
        ∧ (∀ f, (s.chan (channelOf p)).profile = some f →
            st = if (code.getD 0xFF).toNat = f.identity then .disabled else .refused)
        ∧ Sent s t .positions none false
            { time := s.now, kind := .positionChanged, channel := some (channelOf p), position := some p
              value := some (code.getD 0xFF).toNat, newState := .position st })
      ∧ (2147483648 ≤ (s.now - finish).toNat → exec (.identityReadEnd p code) s = .next s))
    ∧ (∀ (e : EntryIx) (front rest : List TripDelivery) (sent : Nat), s.trips = front ++ ⟨p, e, sent⟩ :: rest →
      (∀ d, d ∈ front → ¬(d.position = p ∧ d.entry = e)) →
      ∃ t, exec (.positionTrip p e) s = .next t
        ∧ t = { s with positions := t.positions, links := t.links, journal := t.journal, trips := front ++ rest }
        ∧ (∀ q, q ≠ p → t.position q = s.position q) ∧ OtherChannels (channelOf p) s t
        ∧ t.position p = (if (s.position p).state = .active then
            { s.position p with state := .tripped, bias := false } else s.position p)
        ∧ t.link (channelOf p) = { s.link (channelOf p) with
            counts := (s.link (channelOf p)).counts ++
              if (s.position p).state = .active then [activeCount s (channelOf p) - 1] else [] }
        ∧ ((s.position p).state = .active → relayEnergized t = false)
        ∧ Sent s t .positions (some ⟨.evaluator, sent⟩) false
            { time := s.now, kind := .positionChanged, channel := some (channelOf p), position := some p
              condition := some e, newState := .position (t.position p).state })

/-! ## Captures, the journal and the status block -/

/-- R140 to R142, R146: the Capture Unit takes the channel's next trigger, by the first case that fits, and answers
the record that waits for it (R60). The record that waits for the answer holds its place and its time: log 12. -/
def Obligations.TriggersAreTaken : Prop :=
  ∀ (s : State) (c : Channel) (front rest : List WaitingRecord) (w : WaitingRecord),
    s.journal.waiting = front ++ w :: rest → w.sender = .channel c → w.awaitsCapture = true →
    (∀ v, v ∈ front → ¬(v.sender = .channel c ∧ v.awaitsCapture = true)) →
    ((s.evaluator.settings.captureEnable ≠ 1
        ∨ ((∀ b, (s.buffer b).state ≠ .filling ∧ (s.buffer b).state ≠ .free)
          ∧ (s.evaluator.settings.capturePolicy ≠ 1 ∨ ∀ b, (s.buffer b).state ≠ .ready))) →
      exec (.captureTrigger c) s =
        .next { s with journal := { s.journal with waiting := front ++ { w with awaitsCapture := false } :: rest } })
    ∧ (∀ b, s.evaluator.settings.captureEnable = 1 → (s.buffer b).state = .filling →
        (∀ a, (s.buffer a).state = .filling → a = b) →
        ∃ t, exec (.captureTrigger c) s = .next t
          ∧ t = { s with mem := t.mem, captures := t.captures, journal := { s.journal with
              waiting := front ++ { w with
                awaitsCapture := false, record := { w.record with buffer := some b, joined := true } } :: rest } }
          ∧ t.buffer b = { s.buffer b with mask := (s.buffer b).mask ||| 1#4 <<< c.val }
          ∧ (∀ a, a ≠ b → t.buffer a = s.buffer a) ∧ t.captures.postCounts = s.captures.postCounts
          ∧ readNum t.mem (Config.captureHeaderBase + 32 * b.val + 2) 2 = (t.buffer b).mask.toNat
          ∧ MemoryBut (headerBytes b) s t)
    ∧ (s.evaluator.settings.captureEnable = 1 → (∀ b, (s.buffer b).state ≠ .filling) →
        (∃ b, (s.buffer b).state = .free)
          ∨ (s.evaluator.settings.capturePolicy = 1 ∧ ∃ b, (s.buffer b).state = .ready) →
        ∃ (t : State) (b : BufferIx), exec (.captureTrigger c) s = .next t
          ∧ ((∃ a, (s.buffer a).state = .free) →
              (s.buffer b).state = .free ∧ ∀ a, a < b → (s.buffer a).state ≠ .free)
          ∧ ((∀ a, (s.buffer a).state ≠ .free) → (s.buffer b).state = .ready
              ∧ ∀ a, (s.buffer a).state = .ready →
                sequencesBack s.journal.newest (s.buffer a).sequence
                  ≤ sequencesBack s.journal.newest (s.buffer b).sequence)
          ∧ t = { s with mem := t.mem, captures := t.captures, journal := { s.journal with
              waiting := front ++ { w with
                awaitsCapture := false, record := { w.record with buffer := some b } } :: rest } }
          ∧ t.buffer b = ⟨.filling, 0, s.now, 1#4 <<< c.val⟩
          ∧ (∀ a, a ≠ b → t.buffer a = s.buffer a) ∧ (∀ j, look t.captures.postCounts j = 0)
          ∧ readNum t.mem (Config.captureHeaderBase + 32 * b.val) 2 = 1
          ∧ readNum t.mem (Config.captureHeaderBase + 32 * b.val + 2) 2 = 2 ^ c.val
          ∧ readNum t.mem (Config.captureHeaderBase + 32 * b.val + 4) 4 = 0
          ∧ readNum t.mem (Config.captureHeaderBase + 32 * b.val + 8) 4 = s.now.toNat
          ∧ (∀ (k : Fin 64) (j : CapturedIx),
              look (look s.scanner.rings j).slots ((look s.scanner.rings j).index + k) < 65536 →
              readNum t.mem (0x3000 + 1536 * b.val + 12 * k.val + 2 * j.val) 2
                = look (look s.scanner.rings j).slots ((look s.scanner.rings j).index + k))
          ∧ MemoryBut (fun a => headerBytes b a
              ∨ (0x3000 + 1536 * b.val ≤ a ∧ a < 0x3000 + 1536 * b.val + 768)) s t)

/-- R164, R165, R143, R145: the Journal Writer takes a sender's next record once it is that record's turn, and
numbers nothing before READY (R161). That a sender's record is not overtaken by its next one, and the stamps that keep
the order across senders, are the model's: log 12, log 14. That the command changes nothing with no record of the
sender waiting is the model's choice: log 1. -/
def Obligations.RecordsAreNumbered : Prop :=
  (∀ (s : State) (sender : Sender), s.phase ≠ .ready → exec (.journalRecord sender) s = .next s)
  ∧ (∀ (s : State) (sender : Sender), (∀ v, v ∈ s.journal.waiting → v.sender ≠ sender) →
      exec (.journalRecord sender) s = .next s)
  ∧ ∀ (s : State) (front rest : List WaitingRecord) (w : WaitingRecord), s.phase = .ready →
    s.journal.waiting = front ++ w :: rest → (∀ v, v ∈ front → v.sender ≠ w.sender) →
    (inTurn s.journal.waiting w = true ↔ w.awaitsCapture = false
      ∧ ∀ st, w.after = some st → ∀ v, v ∈ s.journal.waiting → v.sender = st.sender → st.serial ≤ v.serial)
    ∧ (inTurn s.journal.waiting w = false → exec (.journalRecord w.sender) s = .next s)
    ∧ (inTurn s.journal.waiting w = true →
      ∃ (t : State) (q : Seq), exec (.journalRecord w.sender) s = .next t
        ∧ q = (if s.journal.newest = 4294967295 then 1 else s.journal.newest + 1)
        ∧ t = { s with mem := t.mem, captures := t.captures, journal := t.journal }
        ∧ t.journal = { s.journal with newest := q, next := s.journal.next + 1, waiting := front ++ rest }
        ∧ RecordAt t.mem s.journal.next q w.record
        ∧ readNum t.mem Config.journalHeaderBase 4 = q.toNat
        ∧ readNum t.mem (Config.journalHeaderBase + 4) 2 = (s.journal.next + 1).val
        ∧ (¬((w.record.kind = .strike ∨ w.record.kind = .lockout) ∧ w.record.joined = false
              ∧ w.record.buffer.isSome = true) →
            t.captures = s.captures
            ∧ MemoryBut (fun a => journalSlotBytes s.journal.next a ∨ journalHeaderBytes a) s t)
        ∧ (∀ b, (w.record.kind = .strike ∨ w.record.kind = .lockout) → w.record.joined = false →
            w.record.buffer = some b → (s.buffer b).state = .filling → (∀ a, (s.buffer a).state = .filling → a = b) →
            t.buffer b = { s.buffer b with
              sequence := q, state := if (∀ j, look s.captures.postCounts j = 64) then .ready else .filling }
            ∧ (∀ a, a ≠ b → t.buffer a = s.buffer a) ∧ t.captures.postCounts = s.captures.postCounts
            ∧ readNum t.mem (Config.captureHeaderBase + 32 * b.val + 4) 4 = q.toNat
            ∧ MemoryBut (fun a => journalSlotBytes s.journal.next a ∨ journalHeaderBytes a ∨ headerBytes b a) s t))

/-- R168, R169: a rewrite of the status block; its end copies what it has not yet copied. When a rewrite is due is the
model's choice: log 10. The moments of the copies are operands: log 27. That an end with no rewrite in progress changes
nothing is the model's choice: log 1. -/
def Obligations.StatusBlockIsRewritten : Prop :=
  ∀ s : State,
    (s.phase = .ready → s.status.copied = none → (s.now - s.status.due).toNat < 2147483648 →
      ∃ t, exec (.statusRewrite []) s = .next t
        ∧ t = { s with mem := t.mem, status := ⟨s.status.count + 1, s.now + 10, some []⟩ }
        ∧ readNum t.mem 0x2000 4 = (s.status.count + 1).toNat
        ∧ MemoryBut (fun a => 0x2000 ≤ a ∧ a < 0x2004) s t)
    ∧ (∀ fields, s.phase = .ready → s.status.copied = none → 2147483648 ≤ (s.now - s.status.due).toNat →
        exec (.statusRewrite fields) s = .next s)
    ∧ (∀ fields, s.phase = .ready → s.status.copied = none → (s.now - s.status.due).toNat < 2147483648 →
        ∃ t, exec (.statusRewrite []) s = .next t ∧ exec (.statusRewrite fields) s = exec (.statusRewrite fields) t)
    ∧ (∀ (k : Nat) (rest done : List Nat), s.phase = .ready → s.status.copied = some done →
        ∃ t, exec (.statusRewrite [k]) s = .next t
          ∧ exec (.statusRewrite (k :: rest)) s = exec (.statusRewrite rest) t
          ∧ (k ∈ done ∨ statusFieldCount ≤ k → t = s))
    ∧ (∀ (k : Nat) (done : List Nat) (f : StatusField), s.phase = .ready → s.status.copied = some done → k ∉ done →
        (statusFields s)[k]? = some f →
        ∃ t, exec (.statusRewrite [k]) s = .next t
          ∧ t = { s with mem := t.mem, status := { s.status with copied := some (k :: done) } }
          ∧ readNum t.mem (0x2000 + f.offset) f.size = f.value % 256 ^ f.size
          ∧ MemoryBut (fun a => 0x2000 + f.offset ≤ a ∧ a < 0x2000 + f.offset + f.size) s t)
    ∧ (∀ done, s.status.copied = some done →
      ∃ t, exec .statusRewriteEnd s = .next t
        ∧ t = { s with mem := t.mem, status := ⟨s.status.count + 1, s.status.due, none⟩ }
        ∧ MemoryBut (fun a => 0x2000 ≤ a ∧ a < 0x3000) s t
        ∧ readNum t.mem 0x2000 4 = (s.status.count + 1).toNat
        ∧ ∀ (k : Nat) (f : StatusField), (statusFields s)[k]? = some f →
          (k ∈ done → ∀ a, 0x2000 + f.offset ≤ a → a < 0x2000 + f.offset + f.size →
            readByte t.mem a = readByte s.mem a)
          ∧ (k ∉ done → readNum t.mem (0x2000 + f.offset) f.size = f.value % 256 ^ f.size))
    ∧ (s.status.copied = none → exec .statusRewriteEnd s = .next s)
    ∧ (s.status.copied = some [] →
      ∃ t, exec .statusRewriteEnd s = .next t
        ∧ t = { s with mem := t.mem, status := ⟨s.status.count + 1, s.status.due, none⟩ }
        ∧ MemoryBut (fun a => 0x2000 ≤ a ∧ a < 0x3000) s t
        ∧ readNum t.mem 0x2000 4 = (s.status.count + 1).toNat
        ∧ readNum t.mem 0x2004 4 = s.now.toNat
        ∧ readNum t.mem 0x2008 1 = flag s.evaluator.configured
        ∧ readNum t.mem 0x2009 1 = flag s.scanner.interlockClosed
        ∧ (∀ l : ArcLine, (readNum t.mem 0x200A 1).testBit l.val = look s.scanner.arcAsserted l)
        ∧ (∀ c : Channel,
            readNum t.mem (0x2010 + 32 * c.val) 1 = (s.chan c).state.code
            ∧ readNum t.mem (0x2010 + 32 * c.val + 0x01) 1 = (s.resolver c).governing.code
            ∧ readNum t.mem (0x2010 + 32 * c.val + 0x02) 1 = flag (s.monitor c).present
            ∧ readNum t.mem (0x2010 + 32 * c.val + 0x03) 1 = (s.strike c).times.length % 256
            ∧ readNum t.mem (0x2010 + 32 * c.val + 0x04) 2 = levelOrNone (s.resolver c).target % 65536
            ∧ readNum t.mem (0x2010 + 32 * c.val + 0x06) 2 = levelOrNone (s.resolver c).positions % 65536
            ∧ readNum t.mem (0x2010 + 32 * c.val + 0x08) 2 = levelOrNone (s.resolver c).foldback % 65536
            ∧ readNum t.mem (0x2010 + 32 * c.val + 0x0A) 2 = levelOrNone (s.resolver c).ramp % 65536
            ∧ readNum t.mem (0x2010 + 32 * c.val + 0x0C) 2 = (s.resolver c).resolved % 65536
            ∧ readNum t.mem (0x2010 + 32 * c.val + 0x0E) 2 = (s.resolver c).drive % 65536
            ∧ readNum t.mem (0x2010 + 32 * c.val + 0x10) 2 = (s.resolver c).activeSet.length % 65536
            ∧ readNum t.mem (0x2010 + 32 * c.val + 0x12) 2 = (s.strike c).number.toNat
            ∧ readNum t.mem (0x2010 + 32 * c.val + 0x14) 4 = (s.monitor c).realMarks.toNat)
        ∧ (∀ p : PositionIx, readNum t.mem (0x2090 + 4 * p.val) 1 = (s.position p).state.code
            ∧ readNum t.mem (0x2090 + 4 * p.val + 1) 1 = (s.position p).identity.toNat
            ∧ readNum t.mem (0x2090 + 4 * p.val + 2) 1 = flag (s.position p).bias)
        ∧ (∀ i : EntryIx, readNum t.mem (0x20F0 + i.val) 1 = (s.entry i).state.code)
        ∧ ∀ q : Point, readNum t.mem (0x2150 + 2 * q.val) 2 = look s.scanner.latest q % 65536)

/-! ## Laws that every step keeps -/

/-- The state as the card leaves a power-on reset with every line inactive (log 9) satisfies every law. -/
def Obligations.ResetHoldsTheLaws : Prop :=
  MemoryLaw State.reset ∧ ChannelLaws State.reset ∧ InterlockLaw State.reset ∧ PositionLaws State.reset
    ∧ EntryLaws State.reset ∧ FoldbackLaw State.reset ∧ CaptureLaw State.reset ∧ StatusLaw State.reset
    ∧ RestLaw State.reset

/-- R150, R140, R144, R147, R168: common memory keeps its canonical form, the capture buffers their laws, and the
update count its parity. -/
def Obligations.StepKeepsMemoryCaptureAndStatusLaws : Prop :=
  ∀ s t : State, step s = .next t →
    (MemoryLaw s → MemoryLaw t) ∧ (CaptureLaw s → CaptureLaw t) ∧ (StatusLaw s → StatusLaw t)

/-- R49, R72, R75, R80, R94, R98, R110, R112: what holds of the channels and the Arbiter. -/
def Obligations.StepKeepsChannelLaws : Prop := ∀ s t : State, ChannelLaws s → step s = .next t → ChannelLaws t

/-- R69: with the interlock open, no channel that has taken its opened event is on air or in the queue. -/
def Obligations.StepKeepsInterlockLaw : Prop :=
  ∀ s t : State, ChannelLaws s → InterlockLaw s → step s = .next t → InterlockLaw t

/-- R115, R126, R128, R130: what holds of the positions and their counts. -/
def Obligations.StepKeepsPositionLaws : Prop := ∀ s t : State, PositionLaws s → step s = .next t → PositionLaws t

/-- R19, R25 to R28, R41, R42, R44, R32: what holds of the live conditions and of each channel's active set. -/
def Obligations.StepKeepsConditionLaws : Prop :=
  ∀ s t : State, EntryLaws s → step s = .next t → EntryLaws t ∧ (FoldbackLaw s → FoldbackLaw t)

/-- R48, R125, R154, R160: in reset and until READY no sweep and no load runs, every channel is OFF, muted, at drive 0
and with no confirmation PENDING, and no position is in service. -/
def Obligations.StepKeepsCardAtRestBeforeReady : Prop := ∀ s t : State, RestLaw s → step s = .next t → RestLaw t
end

