-- ==== Sys2Proof/Laws/Memory.lean ====
section
/-! SUPPORT. Common memory: what a read gives after a write, and that every write keeps the canonical form. -/

namespace Sys2Proof.Machine

theorem Memory.wf_iff (m : Memory) :
    m.wf = true ↔ m.Pairwise (fun x y => x.1 < y.1) ∧ ∀ x ∈ m, x.1 < Config.memorySize ∧ x.2 ≠ 0 := by
  simp [Memory.wf]

@[simp] theorem readByte_nil (a : Nat) : readByte [] a = 0 := rfl

/-- A memory that lists nothing at an address reads as 0 there. -/
theorem readByte_absent (m : Memory) (a : Nat) (h : ∀ y ∈ m, y.1 ≠ a) : readByte m a = 0 := by
  have : m.find? (fun x => x.1 == a) = none := by simpa using h
  simp [readByte, this]

/-- A read passes over a first part that lists nothing at the address. -/
theorem readByte_append_right (m n : Memory) (a : Nat) (h : ∀ y ∈ m, y.1 ≠ a) :
    readByte (m ++ n) a = readByte n a := by
  have : m.find? (fun x => x.1 == a) = none := by simpa using h
  simp [readByte, List.find?_append, this]

/-- A read stays in a first part when the second lists nothing at the address. -/
theorem readByte_append_left (m n : Memory) (a : Nat) (h : ∀ y ∈ n, y.1 ≠ a) :
    readByte (m ++ n) a = readByte m a := by
  have : n.find? (fun x => x.1 == a) = none := by simpa using h
  simp [readByte, List.find?_append, this]

/-- A read at an address that a filter keeps. -/
theorem readByte_filter (m : Memory) (p : Nat → Bool) (a : Nat) :
    readByte (m.filter (fun x => p x.1)) a = if p a then readByte m a else 0 := by
  induction m with
  | nil => simp
  | cons c m ih =>
    unfold readByte at ih ⊢
    by_cases hp : p c.1 <;> by_cases hc : c.1 = a
    · subst hc; simp [hp]
    · simp only [List.filter_cons, hp, if_true, List.find?_cons, beq_eq_false_iff_ne.mpr hc]; exact ih
    · subst hc; simp only [List.filter_cons, hp]; simpa [hp] using ih
    · simp only [List.filter_cons, hp, List.find?_cons, beq_eq_false_iff_ne.mpr hc]; simpa using ih

/-- Reading zeroed memory. -/
theorem readByte_zeroRange (m : Memory) (a n x : Nat) :
    readByte (zeroRange m a n) x = if a ≤ x ∧ x < a + n then 0 else readByte m x := by
  have h := readByte_filter m (fun y => decide (y < a ∨ a + n ≤ y)) x
  unfold zeroRange
  rw [h]
  by_cases hx : a ≤ x ∧ x < a + n
  · rw [if_pos hx, if_neg (by simp; omega)]
  · rw [if_neg hx, if_pos (by simp; omega)]

/-- The cells of a run of bytes read as the bytes. -/
theorem readByte_cells (bs : List Byte) : ∀ a x : Nat,
    readByte (cells a bs) x = if a ≤ x ∧ x < a + bs.length then bs.getD (x - a) 0 else 0 := by
  induction bs with
  | nil => intro a x; simp [cells]
  | cons b bs ih =>
    intro a x
    unfold cells
    by_cases hb : b = 0
    · subst hb
      rw [if_pos rfl, ih]
      rcases Nat.lt_trichotomy x a with h | h | h
      · rw [if_neg (by omega), if_neg (by omega)]
      · subst h; rw [if_neg (by omega), if_pos (by simp)]; simp
      · obtain ⟨k, rfl⟩ : ∃ k, x = a + 1 + k := ⟨x - (a + 1), by omega⟩
        have e1 : a + 1 + k - (a + 1) = k := by omega
        have e2 : a + 1 + k - a = k + 1 := by omega
        rw [e1, e2]
        by_cases hk : k < bs.length
        · rw [if_pos (by omega), if_pos (by simp; omega)]; simp
        · rw [if_neg (by omega), if_neg (by simp; omega)]
    · rw [if_neg hb]
      by_cases hx : a = x
      · subst hx; simp [readByte]
      · have e : readByte ((a, b) :: cells (a + 1) bs) x = readByte (cells (a + 1) bs) x := by
          simp [readByte, hx]
        rw [e, ih]
        rcases Nat.lt_or_ge x a with h | h
        · rw [if_neg (by omega), if_neg (by omega)]
        · obtain ⟨k, rfl⟩ : ∃ k, x = a + 1 + k := ⟨x - (a + 1), by omega⟩
          have e1 : a + 1 + k - (a + 1) = k := by omega
          have e2 : a + 1 + k - a = k + 1 := by omega
          rw [e1, e2]
          by_cases hk : k < bs.length
          · rw [if_pos (by omega), if_pos (by simp; omega)]; simp
          · rw [if_neg (by omega), if_neg (by simp; omega)]

/-- Cells stand at the addresses of their bytes. -/
theorem mem_cells (bs : List Byte) : ∀ (a : Nat) (x : Host.Cell),
    x ∈ cells a bs → a ≤ x.1 ∧ x.1 < a + bs.length ∧ x.2 ≠ 0 := by
  induction bs with
  | nil => intro a x h; simp [cells] at h
  | cons b bs ih =>
    intro a x h
    unfold cells at h
    by_cases hb : b = 0
    · rw [if_pos hb] at h
      have := ih (a + 1) x h
      refine ⟨by omega, ?_, this.2.2⟩
      simp only [List.length_cons]; omega
    · rw [if_neg hb] at h
      rcases List.mem_cons.mp h with h | h
      · subst h; exact ⟨Nat.le_refl _, by simp, hb⟩
      · have := ih (a + 1) x h
        refine ⟨by omega, ?_, this.2.2⟩
        simp only [List.length_cons]; omega

/-- The cells of a run of bytes rise. -/
theorem cells_rise (bs : List Byte) : ∀ a : Nat, (cells a bs).Pairwise (fun x y => x.1 < y.1) := by
  induction bs with
  | nil => intro a; simp [cells]
  | cons b bs ih =>
    intro a
    unfold cells
    by_cases hb : b = 0
    · rw [if_pos hb]; exact ih (a + 1)
    · rw [if_neg hb, List.pairwise_cons]
      refine ⟨fun x hx => ?_, ih (a + 1)⟩
      have := mem_cells bs (a + 1) x hx
      show a < x.1
      omega

/-- What a read gives after a write. -/
theorem readByte_writeBytes (m : Memory) (a : Nat) (bs : List Byte) (x : Nat) :
    readByte (writeBytes m a bs) x = if a ≤ x ∧ x < a + bs.length then bs.getD (x - a) 0 else readByte m x := by
  unfold writeBytes
  have hlow := readByte_filter m (fun y => decide (y < a)) x
  have hhigh := readByte_filter m (fun y => decide (a + bs.length ≤ y)) x
  by_cases h1 : x < a
  · rw [readByte_append_left, readByte_append_left, hlow, if_pos (by simpa using h1), if_neg (by omega)]
    · intro y hy; have := mem_cells bs a y hy; omega
    · intro y hy; have := (List.mem_filter.mp hy).2; simp at this; omega
  · by_cases h2 : x < a + bs.length
    · rw [readByte_append_left, readByte_append_right, readByte_cells, if_pos (by omega), if_pos (by omega)]
      · intro y hy; have := (List.mem_filter.mp hy).2; simp at this; omega
      · intro y hy; have := (List.mem_filter.mp hy).2; simp at this; omega
    · rw [readByte_append_right, hhigh, if_pos (by simp; omega), if_neg (by omega)]
      intro y hy
      rcases List.mem_append.mp hy with hy | hy
      · have := (List.mem_filter.mp hy).2; simp at this; omega
      · have := mem_cells bs a y hy; omega

/-- A write inside the 64 KiB keeps the canonical form. -/
theorem wf_writeBytes (m : Memory) (a : Nat) (bs : List Byte) (hm : m.wf = true)
    (ha : a + bs.length ≤ Config.memorySize) : (writeBytes m a bs).wf = true := by
  rw [Memory.wf_iff] at hm ⊢
  obtain ⟨hp, hall⟩ := hm
  unfold writeBytes
  refine ⟨?_, ?_⟩
  · rw [List.pairwise_append, List.pairwise_append]
    refine ⟨⟨hp.filter _, cells_rise bs a, ?_⟩, hp.filter _, ?_⟩
    · intro y hy z hz
      have h1 := (List.mem_filter.mp hy).2
      have h2 := mem_cells bs a z hz
      simp at h1; omega
    · intro y hy z hz
      have h2 := (List.mem_filter.mp hz).2
      simp at h2
      rcases List.mem_append.mp hy with hy | hy
      · have h1 := (List.mem_filter.mp hy).2; simp at h1; omega
      · have h1 := mem_cells bs a y hy; omega
  · intro y hy
    rcases List.mem_append.mp hy with hy | hy
    · rcases List.mem_append.mp hy with hy | hy
      · exact hall y (List.mem_filter.mp hy).1
      · have h1 := mem_cells bs a y hy
        exact ⟨by omega, h1.2.2⟩
    · exact hall y (List.mem_filter.mp hy).1

/-- Zeroing keeps the canonical form. -/
theorem wf_zeroRange (m : Memory) (a n : Nat) (hm : m.wf = true) : (zeroRange m a n).wf = true := by
  rw [Memory.wf_iff] at hm ⊢
  exact ⟨hm.1.filter _, fun y hy => hm.2 y (List.mem_filter.mp hy).1⟩

@[simp] theorem wf_nil : Memory.wf [] = true := rfl

@[simp] theorem numBytes_length (n : Nat) : ∀ v : Nat, (numBytes n v).length = n := by
  induction n with
  | zero => intro v; rfl
  | succ n ih => intro v; simp [numBytes, ih]

/-- A number is read from the bytes at its own addresses. -/
theorem readNum_congr (m m' : Memory) (n : Nat) :
    ∀ a : Nat, (∀ x, a ≤ x → x < a + n → readByte m x = readByte m' x) → readNum m a n = readNum m' a n := by
  induction n with
  | zero => intro a _; rfl
  | succ n ih =>
    intro a h
    unfold readNum
    rw [h a (Nat.le_refl _) (by omega), ih (a + 1) (fun x h1 h2 => h x (by omega) (by omega))]

/-- A number read is within its width. -/
theorem readNum_lt (m : Memory) (n : Nat) : ∀ a : Nat, readNum m a n < 256 ^ n := by
  induction n with
  | zero => intro a; simp [readNum]
  | succ n ih =>
    intro a
    unfold readNum
    have h1 := (readByte m a).isLt
    have h2 := ih (a + 1)
    rw [Nat.pow_succ]
    omega

/-- A write elsewhere leaves a number as it was. -/
theorem readNum_writeBytes_disjoint (m : Memory) (a : Nat) (bs : List Byte) (b n : Nat)
    (h : b + n ≤ a ∨ a + bs.length ≤ b) : readNum (writeBytes m a bs) b n = readNum m b n := by
  apply readNum_congr
  intro x h1 h2
  rw [readByte_writeBytes, if_neg (by omega)]

/-- Bytes that read as a number's bytes read as the number. -/
theorem readNum_of_bytes (m : Memory) (n : Nat) : ∀ a v : Nat,
    (∀ k, k < n → readByte m (a + k) = (numBytes n v).getD k 0) → readNum m a n = v % 256 ^ n := by
  induction n with
  | zero => intro a v _; simp [readNum, Nat.mod_one]
  | succ n ih =>
    intro a v h
    unfold readNum
    have h0 := h 0 (by omega)
    simp only [Nat.add_zero, numBytes, List.getD_cons_zero] at h0
    rw [h0, ih (a + 1) (v / 256)]
    · have e : 256 ^ (n + 1) = 256 * 256 ^ n := by rw [Nat.pow_succ, Nat.mul_comm]
      rw [BitVec.toNat_ofNat, e, Nat.mod_mul]
    · intro k hk
      have := h (k + 1) (by omega)
      simp only [numBytes, List.getD_cons_succ] at this
      rw [← this]
      congr 1
      omega

/-- A number written at an offset of a run of bytes is what a read there gives. -/
theorem readNum_writeBytes_at (m : Memory) (a n v : Nat) (before after : List Byte) (b : Nat)
    (hb : b = a + before.length) :
    readNum (writeBytes m a (before ++ numBytes n v ++ after)) b n = v % 256 ^ n := by
  apply readNum_of_bytes
  intro k hk
  subst hb
  rw [readByte_writeBytes, if_pos (by simp; omega)]
  have e : a + before.length + k - a = before.length + k := by omega
  rw [e, List.getD_eq_getElem?_getD, List.getD_eq_getElem?_getD, List.append_assoc,
    List.getElem?_append_right (by omega), List.getElem?_append_left (by simp; omega)]
  congr 2
  omega

/-- A number written is what a read gives. -/
theorem readNum_writeBytes_same (m : Memory) (a n v : Nat) :
    readNum (writeBytes m a (numBytes n v)) a n = v % 256 ^ n := by
  have := readNum_writeBytes_at m a n v [] [] a rfl
  simpa using this

end Sys2Proof.Machine
end

