-- ==== Sys2Proof/Laws/State.lean ====
section
/-! SUPPORT. One lemma for each field under each update of State, and for each accessor: later proofs simplify with
these and unfold no record update. -/

namespace Sys2Proof.Machine

@[simp] theorem look_put_same {α : Type} {n : Nat} (v : Vector α n) (i : Fin n) (x : α) : look (put v i x) i = x := by
  simp [look, put]

@[simp] theorem look_put_ne {α : Type} {n : Nat} (v : Vector α n) (i j : Fin n) (x : α) (h : j ≠ i) :
    look (put v i x) j = look v j := by
  have h' : i.val ≠ j.val := fun e => h (Fin.ext e.symm)
  simp [look, put, h']

theorem look_put {α : Type} {n : Nat} (v : Vector α n) (i j : Fin n) (x : α) :
    look (put v i x) j = if j = i then x else look v j := by
  by_cases h : j = i
  · subst h; simp
  · simp [h]

@[simp] theorem look_replicate {α : Type} {n : Nat} (x : α) (i : Fin n) : look (Vector.replicate n x) i = x := by
  simp [look]

@[simp] theorem look_ofFn {α : Type} {n : Nat} (f : Fin n → α) (i : Fin n) : look (Vector.ofFn f) i = f i := by
  simp [look]

/-- Writing back what stands there changes nothing. -/
@[simp] theorem put_look {α : Type} {n : Nat} (v : Vector α n) (i : Fin n) : put v i (look v i) = v := by
  ext j hj
  simp only [put, look, Vector.getElem_set]
  split
  · rename_i h; subst h; rfl
  · rfl

/-- The later of two writes of one entry stands. -/
@[simp] theorem put_put {α : Type} {n : Nat} (v : Vector α n) (i : Fin n) (x y : α) :
    put (put v i x) i y = put v i y := by
  simp [put]

namespace State


/-! setMem -/

@[simp] theorem setMem_phase (s : State) (x : Memory) : (s.setMem x).phase = s.phase := rfl
@[simp] theorem setMem_now (s : State) (x : Memory) : (s.setMem x).now = s.now := rfl
@[simp] theorem setMem_mem (s : State) (x : Memory) : (s.setMem x).mem = x := rfl
@[simp] theorem setMem_initialized (s : State) (x : Memory) : (s.setMem x).initialized = s.initialized := rfl
@[simp] theorem setMem_scanner (s : State) (x : Memory) : (s.setMem x).scanner = s.scanner := rfl
@[simp] theorem setMem_monitors (s : State) (x : Memory) : (s.setMem x).monitors = s.monitors := rfl
@[simp] theorem setMem_evaluator (s : State) (x : Memory) : (s.setMem x).evaluator = s.evaluator := rfl
@[simp] theorem setMem_chans (s : State) (x : Memory) : (s.setMem x).chans = s.chans := rfl
@[simp] theorem setMem_strikes (s : State) (x : Memory) : (s.setMem x).strikes = s.strikes := rfl
@[simp] theorem setMem_resolvers (s : State) (x : Memory) : (s.setMem x).resolvers = s.resolvers := rfl
@[simp] theorem setMem_arbiter (s : State) (x : Memory) : (s.setMem x).arbiter = s.arbiter := rfl
@[simp] theorem setMem_positions (s : State) (x : Memory) : (s.setMem x).positions = s.positions := rfl
@[simp] theorem setMem_captures (s : State) (x : Memory) : (s.setMem x).captures = s.captures := rfl
@[simp] theorem setMem_handler (s : State) (x : Memory) : (s.setMem x).handler = s.handler := rfl
@[simp] theorem setMem_journal (s : State) (x : Memory) : (s.setMem x).journal = s.journal := rfl
@[simp] theorem setMem_status (s : State) (x : Memory) : (s.setMem x).status = s.status := rfl
@[simp] theorem setMem_irqEnable (s : State) (x : Memory) : (s.setMem x).irqEnable = s.irqEnable := rfl
@[simp] theorem setMem_links (s : State) (x : Memory) : (s.setMem x).links = s.links := rfl
@[simp] theorem setMem_trips (s : State) (x : Memory) : (s.setMem x).trips = s.trips := rfl
@[simp] theorem setMem_pending (s : State) (x : Memory) : (s.setMem x).pending = s.pending := rfl
@[simp] theorem setMem_chan (s : State) (x : Memory) (k : Channel) : (s.setMem x).chan k = s.chan k := rfl
@[simp] theorem setMem_strike (s : State) (x : Memory) (k : Channel) : (s.setMem x).strike k = s.strike k := rfl
@[simp] theorem setMem_resolver (s : State) (x : Memory) (k : Channel) : (s.setMem x).resolver k = s.resolver k := rfl
@[simp] theorem setMem_monitor (s : State) (x : Memory) (k : Channel) : (s.setMem x).monitor k = s.monitor k := rfl
@[simp] theorem setMem_link (s : State) (x : Memory) (k : Channel) : (s.setMem x).link k = s.link k := rfl
@[simp] theorem setMem_position (s : State) (x : Memory) (k : PositionIx) : (s.setMem x).position k = s.position k := rfl
@[simp] theorem setMem_entry (s : State) (x : Memory) (k : EntryIx) : (s.setMem x).entry k = s.entry k := rfl
@[simp] theorem setMem_buffer (s : State) (x : Memory) (k : BufferIx) : (s.setMem x).buffer k = s.buffer k := rfl

/-! setScanner -/

@[simp] theorem setScanner_phase (s : State) (x : Scanner) : (s.setScanner x).phase = s.phase := rfl
@[simp] theorem setScanner_now (s : State) (x : Scanner) : (s.setScanner x).now = s.now := rfl
@[simp] theorem setScanner_mem (s : State) (x : Scanner) : (s.setScanner x).mem = s.mem := rfl
@[simp] theorem setScanner_initialized (s : State) (x : Scanner) : (s.setScanner x).initialized = s.initialized := rfl
@[simp] theorem setScanner_scanner (s : State) (x : Scanner) : (s.setScanner x).scanner = x := rfl
@[simp] theorem setScanner_monitors (s : State) (x : Scanner) : (s.setScanner x).monitors = s.monitors := rfl
@[simp] theorem setScanner_evaluator (s : State) (x : Scanner) : (s.setScanner x).evaluator = s.evaluator := rfl
@[simp] theorem setScanner_chans (s : State) (x : Scanner) : (s.setScanner x).chans = s.chans := rfl
@[simp] theorem setScanner_strikes (s : State) (x : Scanner) : (s.setScanner x).strikes = s.strikes := rfl
@[simp] theorem setScanner_resolvers (s : State) (x : Scanner) : (s.setScanner x).resolvers = s.resolvers := rfl
@[simp] theorem setScanner_arbiter (s : State) (x : Scanner) : (s.setScanner x).arbiter = s.arbiter := rfl
@[simp] theorem setScanner_positions (s : State) (x : Scanner) : (s.setScanner x).positions = s.positions := rfl
@[simp] theorem setScanner_captures (s : State) (x : Scanner) : (s.setScanner x).captures = s.captures := rfl
@[simp] theorem setScanner_handler (s : State) (x : Scanner) : (s.setScanner x).handler = s.handler := rfl
@[simp] theorem setScanner_journal (s : State) (x : Scanner) : (s.setScanner x).journal = s.journal := rfl
@[simp] theorem setScanner_status (s : State) (x : Scanner) : (s.setScanner x).status = s.status := rfl
@[simp] theorem setScanner_irqEnable (s : State) (x : Scanner) : (s.setScanner x).irqEnable = s.irqEnable := rfl
@[simp] theorem setScanner_links (s : State) (x : Scanner) : (s.setScanner x).links = s.links := rfl
@[simp] theorem setScanner_trips (s : State) (x : Scanner) : (s.setScanner x).trips = s.trips := rfl
@[simp] theorem setScanner_pending (s : State) (x : Scanner) : (s.setScanner x).pending = s.pending := rfl
@[simp] theorem setScanner_chan (s : State) (x : Scanner) (k : Channel) : (s.setScanner x).chan k = s.chan k := rfl
@[simp] theorem setScanner_strike (s : State) (x : Scanner) (k : Channel) : (s.setScanner x).strike k = s.strike k := rfl
@[simp] theorem setScanner_resolver (s : State) (x : Scanner) (k : Channel) : (s.setScanner x).resolver k = s.resolver k := rfl
@[simp] theorem setScanner_monitor (s : State) (x : Scanner) (k : Channel) : (s.setScanner x).monitor k = s.monitor k := rfl
@[simp] theorem setScanner_link (s : State) (x : Scanner) (k : Channel) : (s.setScanner x).link k = s.link k := rfl
@[simp] theorem setScanner_position (s : State) (x : Scanner) (k : PositionIx) : (s.setScanner x).position k = s.position k := rfl
@[simp] theorem setScanner_entry (s : State) (x : Scanner) (k : EntryIx) : (s.setScanner x).entry k = s.entry k := rfl
@[simp] theorem setScanner_buffer (s : State) (x : Scanner) (k : BufferIx) : (s.setScanner x).buffer k = s.buffer k := rfl

/-! setMonitor -/

@[simp] theorem setMonitor_phase (s : State) (c : Channel) (x : MarkMonitor) : (s.setMonitor c x).phase = s.phase := rfl
@[simp] theorem setMonitor_now (s : State) (c : Channel) (x : MarkMonitor) : (s.setMonitor c x).now = s.now := rfl
@[simp] theorem setMonitor_mem (s : State) (c : Channel) (x : MarkMonitor) : (s.setMonitor c x).mem = s.mem := rfl
@[simp] theorem setMonitor_initialized (s : State) (c : Channel) (x : MarkMonitor) : (s.setMonitor c x).initialized = s.initialized := rfl
@[simp] theorem setMonitor_scanner (s : State) (c : Channel) (x : MarkMonitor) : (s.setMonitor c x).scanner = s.scanner := rfl
@[simp] theorem setMonitor_monitors (s : State) (c : Channel) (x : MarkMonitor) : (s.setMonitor c x).monitors = put s.monitors c x := rfl
@[simp] theorem setMonitor_evaluator (s : State) (c : Channel) (x : MarkMonitor) : (s.setMonitor c x).evaluator = s.evaluator := rfl
@[simp] theorem setMonitor_chans (s : State) (c : Channel) (x : MarkMonitor) : (s.setMonitor c x).chans = s.chans := rfl
@[simp] theorem setMonitor_strikes (s : State) (c : Channel) (x : MarkMonitor) : (s.setMonitor c x).strikes = s.strikes := rfl
@[simp] theorem setMonitor_resolvers (s : State) (c : Channel) (x : MarkMonitor) : (s.setMonitor c x).resolvers = s.resolvers := rfl
@[simp] theorem setMonitor_arbiter (s : State) (c : Channel) (x : MarkMonitor) : (s.setMonitor c x).arbiter = s.arbiter := rfl
@[simp] theorem setMonitor_positions (s : State) (c : Channel) (x : MarkMonitor) : (s.setMonitor c x).positions = s.positions := rfl
@[simp] theorem setMonitor_captures (s : State) (c : Channel) (x : MarkMonitor) : (s.setMonitor c x).captures = s.captures := rfl
@[simp] theorem setMonitor_handler (s : State) (c : Channel) (x : MarkMonitor) : (s.setMonitor c x).handler = s.handler := rfl
@[simp] theorem setMonitor_journal (s : State) (c : Channel) (x : MarkMonitor) : (s.setMonitor c x).journal = s.journal := rfl
@[simp] theorem setMonitor_status (s : State) (c : Channel) (x : MarkMonitor) : (s.setMonitor c x).status = s.status := rfl
@[simp] theorem setMonitor_irqEnable (s : State) (c : Channel) (x : MarkMonitor) : (s.setMonitor c x).irqEnable = s.irqEnable := rfl
@[simp] theorem setMonitor_links (s : State) (c : Channel) (x : MarkMonitor) : (s.setMonitor c x).links = s.links := rfl
@[simp] theorem setMonitor_trips (s : State) (c : Channel) (x : MarkMonitor) : (s.setMonitor c x).trips = s.trips := rfl
@[simp] theorem setMonitor_pending (s : State) (c : Channel) (x : MarkMonitor) : (s.setMonitor c x).pending = s.pending := rfl
@[simp] theorem setMonitor_chan (s : State) (c : Channel) (x : MarkMonitor) (k : Channel) : (s.setMonitor c x).chan k = s.chan k := rfl
@[simp] theorem setMonitor_strike (s : State) (c : Channel) (x : MarkMonitor) (k : Channel) : (s.setMonitor c x).strike k = s.strike k := rfl
@[simp] theorem setMonitor_resolver (s : State) (c : Channel) (x : MarkMonitor) (k : Channel) : (s.setMonitor c x).resolver k = s.resolver k := rfl
@[simp] theorem setMonitor_monitor_same (s : State) (c : Channel) (x : MarkMonitor) : (s.setMonitor c x).monitor c = x := look_put_same _ _ _
@[simp] theorem setMonitor_monitor_ne (s : State) (c : Channel) (x : MarkMonitor) (k : Channel) (h : k ≠ c) :
    (s.setMonitor c x).monitor k = s.monitor k := look_put_ne _ _ _ _ h
@[simp] theorem setMonitor_link (s : State) (c : Channel) (x : MarkMonitor) (k : Channel) : (s.setMonitor c x).link k = s.link k := rfl
@[simp] theorem setMonitor_position (s : State) (c : Channel) (x : MarkMonitor) (k : PositionIx) : (s.setMonitor c x).position k = s.position k := rfl
@[simp] theorem setMonitor_entry (s : State) (c : Channel) (x : MarkMonitor) (k : EntryIx) : (s.setMonitor c x).entry k = s.entry k := rfl
@[simp] theorem setMonitor_buffer (s : State) (c : Channel) (x : MarkMonitor) (k : BufferIx) : (s.setMonitor c x).buffer k = s.buffer k := rfl

/-! setEvaluator -/

@[simp] theorem setEvaluator_phase (s : State) (x : Evaluator) : (s.setEvaluator x).phase = s.phase := rfl
@[simp] theorem setEvaluator_now (s : State) (x : Evaluator) : (s.setEvaluator x).now = s.now := rfl
@[simp] theorem setEvaluator_mem (s : State) (x : Evaluator) : (s.setEvaluator x).mem = s.mem := rfl
@[simp] theorem setEvaluator_initialized (s : State) (x : Evaluator) : (s.setEvaluator x).initialized = s.initialized := rfl
@[simp] theorem setEvaluator_scanner (s : State) (x : Evaluator) : (s.setEvaluator x).scanner = s.scanner := rfl
@[simp] theorem setEvaluator_monitors (s : State) (x : Evaluator) : (s.setEvaluator x).monitors = s.monitors := rfl
@[simp] theorem setEvaluator_evaluator (s : State) (x : Evaluator) : (s.setEvaluator x).evaluator = x := rfl
@[simp] theorem setEvaluator_chans (s : State) (x : Evaluator) : (s.setEvaluator x).chans = s.chans := rfl
@[simp] theorem setEvaluator_strikes (s : State) (x : Evaluator) : (s.setEvaluator x).strikes = s.strikes := rfl
@[simp] theorem setEvaluator_resolvers (s : State) (x : Evaluator) : (s.setEvaluator x).resolvers = s.resolvers := rfl
@[simp] theorem setEvaluator_arbiter (s : State) (x : Evaluator) : (s.setEvaluator x).arbiter = s.arbiter := rfl
@[simp] theorem setEvaluator_positions (s : State) (x : Evaluator) : (s.setEvaluator x).positions = s.positions := rfl
@[simp] theorem setEvaluator_captures (s : State) (x : Evaluator) : (s.setEvaluator x).captures = s.captures := rfl
@[simp] theorem setEvaluator_handler (s : State) (x : Evaluator) : (s.setEvaluator x).handler = s.handler := rfl
@[simp] theorem setEvaluator_journal (s : State) (x : Evaluator) : (s.setEvaluator x).journal = s.journal := rfl
@[simp] theorem setEvaluator_status (s : State) (x : Evaluator) : (s.setEvaluator x).status = s.status := rfl
@[simp] theorem setEvaluator_irqEnable (s : State) (x : Evaluator) : (s.setEvaluator x).irqEnable = s.irqEnable := rfl
@[simp] theorem setEvaluator_links (s : State) (x : Evaluator) : (s.setEvaluator x).links = s.links := rfl
@[simp] theorem setEvaluator_trips (s : State) (x : Evaluator) : (s.setEvaluator x).trips = s.trips := rfl
@[simp] theorem setEvaluator_pending (s : State) (x : Evaluator) : (s.setEvaluator x).pending = s.pending := rfl
@[simp] theorem setEvaluator_chan (s : State) (x : Evaluator) (k : Channel) : (s.setEvaluator x).chan k = s.chan k := rfl
@[simp] theorem setEvaluator_strike (s : State) (x : Evaluator) (k : Channel) : (s.setEvaluator x).strike k = s.strike k := rfl
@[simp] theorem setEvaluator_resolver (s : State) (x : Evaluator) (k : Channel) : (s.setEvaluator x).resolver k = s.resolver k := rfl
@[simp] theorem setEvaluator_monitor (s : State) (x : Evaluator) (k : Channel) : (s.setEvaluator x).monitor k = s.monitor k := rfl
@[simp] theorem setEvaluator_link (s : State) (x : Evaluator) (k : Channel) : (s.setEvaluator x).link k = s.link k := rfl
@[simp] theorem setEvaluator_position (s : State) (x : Evaluator) (k : PositionIx) : (s.setEvaluator x).position k = s.position k := rfl
@[simp] theorem setEvaluator_entry (s : State) (x : Evaluator) (k : EntryIx) : (s.setEvaluator x).entry k = look x.entries k := rfl
@[simp] theorem setEvaluator_buffer (s : State) (x : Evaluator) (k : BufferIx) : (s.setEvaluator x).buffer k = s.buffer k := rfl

/-! setChan -/

@[simp] theorem setChan_phase (s : State) (c : Channel) (x : ChannelController) : (s.setChan c x).phase = s.phase := rfl
@[simp] theorem setChan_now (s : State) (c : Channel) (x : ChannelController) : (s.setChan c x).now = s.now := rfl
@[simp] theorem setChan_mem (s : State) (c : Channel) (x : ChannelController) : (s.setChan c x).mem = s.mem := rfl
@[simp] theorem setChan_initialized (s : State) (c : Channel) (x : ChannelController) : (s.setChan c x).initialized = s.initialized := rfl
@[simp] theorem setChan_scanner (s : State) (c : Channel) (x : ChannelController) : (s.setChan c x).scanner = s.scanner := rfl
@[simp] theorem setChan_monitors (s : State) (c : Channel) (x : ChannelController) : (s.setChan c x).monitors = s.monitors := rfl
@[simp] theorem setChan_evaluator (s : State) (c : Channel) (x : ChannelController) : (s.setChan c x).evaluator = s.evaluator := rfl
@[simp] theorem setChan_chans (s : State) (c : Channel) (x : ChannelController) : (s.setChan c x).chans = put s.chans c x := rfl
@[simp] theorem setChan_strikes (s : State) (c : Channel) (x : ChannelController) : (s.setChan c x).strikes = s.strikes := rfl
@[simp] theorem setChan_resolvers (s : State) (c : Channel) (x : ChannelController) : (s.setChan c x).resolvers = s.resolvers := rfl
@[simp] theorem setChan_arbiter (s : State) (c : Channel) (x : ChannelController) : (s.setChan c x).arbiter = s.arbiter := rfl
@[simp] theorem setChan_positions (s : State) (c : Channel) (x : ChannelController) : (s.setChan c x).positions = s.positions := rfl
@[simp] theorem setChan_captures (s : State) (c : Channel) (x : ChannelController) : (s.setChan c x).captures = s.captures := rfl
@[simp] theorem setChan_handler (s : State) (c : Channel) (x : ChannelController) : (s.setChan c x).handler = s.handler := rfl
@[simp] theorem setChan_journal (s : State) (c : Channel) (x : ChannelController) : (s.setChan c x).journal = s.journal := rfl
@[simp] theorem setChan_status (s : State) (c : Channel) (x : ChannelController) : (s.setChan c x).status = s.status := rfl
@[simp] theorem setChan_irqEnable (s : State) (c : Channel) (x : ChannelController) : (s.setChan c x).irqEnable = s.irqEnable := rfl
@[simp] theorem setChan_links (s : State) (c : Channel) (x : ChannelController) : (s.setChan c x).links = s.links := rfl
@[simp] theorem setChan_trips (s : State) (c : Channel) (x : ChannelController) : (s.setChan c x).trips = s.trips := rfl
@[simp] theorem setChan_pending (s : State) (c : Channel) (x : ChannelController) : (s.setChan c x).pending = s.pending := rfl
@[simp] theorem setChan_chan_same (s : State) (c : Channel) (x : ChannelController) : (s.setChan c x).chan c = x := look_put_same _ _ _
@[simp] theorem setChan_chan_ne (s : State) (c : Channel) (x : ChannelController) (k : Channel) (h : k ≠ c) :
    (s.setChan c x).chan k = s.chan k := look_put_ne _ _ _ _ h
@[simp] theorem setChan_strike (s : State) (c : Channel) (x : ChannelController) (k : Channel) : (s.setChan c x).strike k = s.strike k := rfl
@[simp] theorem setChan_resolver (s : State) (c : Channel) (x : ChannelController) (k : Channel) : (s.setChan c x).resolver k = s.resolver k := rfl
@[simp] theorem setChan_monitor (s : State) (c : Channel) (x : ChannelController) (k : Channel) : (s.setChan c x).monitor k = s.monitor k := rfl
@[simp] theorem setChan_link (s : State) (c : Channel) (x : ChannelController) (k : Channel) : (s.setChan c x).link k = s.link k := rfl
@[simp] theorem setChan_position (s : State) (c : Channel) (x : ChannelController) (k : PositionIx) : (s.setChan c x).position k = s.position k := rfl
@[simp] theorem setChan_entry (s : State) (c : Channel) (x : ChannelController) (k : EntryIx) : (s.setChan c x).entry k = s.entry k := rfl
@[simp] theorem setChan_buffer (s : State) (c : Channel) (x : ChannelController) (k : BufferIx) : (s.setChan c x).buffer k = s.buffer k := rfl

/-! setStrike -/

@[simp] theorem setStrike_phase (s : State) (c : Channel) (x : StrikeAccounting) : (s.setStrike c x).phase = s.phase := rfl
@[simp] theorem setStrike_now (s : State) (c : Channel) (x : StrikeAccounting) : (s.setStrike c x).now = s.now := rfl
@[simp] theorem setStrike_mem (s : State) (c : Channel) (x : StrikeAccounting) : (s.setStrike c x).mem = s.mem := rfl
@[simp] theorem setStrike_initialized (s : State) (c : Channel) (x : StrikeAccounting) : (s.setStrike c x).initialized = s.initialized := rfl
@[simp] theorem setStrike_scanner (s : State) (c : Channel) (x : StrikeAccounting) : (s.setStrike c x).scanner = s.scanner := rfl
@[simp] theorem setStrike_monitors (s : State) (c : Channel) (x : StrikeAccounting) : (s.setStrike c x).monitors = s.monitors := rfl
@[simp] theorem setStrike_evaluator (s : State) (c : Channel) (x : StrikeAccounting) : (s.setStrike c x).evaluator = s.evaluator := rfl
@[simp] theorem setStrike_chans (s : State) (c : Channel) (x : StrikeAccounting) : (s.setStrike c x).chans = s.chans := rfl
@[simp] theorem setStrike_strikes (s : State) (c : Channel) (x : StrikeAccounting) : (s.setStrike c x).strikes = put s.strikes c x := rfl
@[simp] theorem setStrike_resolvers (s : State) (c : Channel) (x : StrikeAccounting) : (s.setStrike c x).resolvers = s.resolvers := rfl
@[simp] theorem setStrike_arbiter (s : State) (c : Channel) (x : StrikeAccounting) : (s.setStrike c x).arbiter = s.arbiter := rfl
@[simp] theorem setStrike_positions (s : State) (c : Channel) (x : StrikeAccounting) : (s.setStrike c x).positions = s.positions := rfl
@[simp] theorem setStrike_captures (s : State) (c : Channel) (x : StrikeAccounting) : (s.setStrike c x).captures = s.captures := rfl
@[simp] theorem setStrike_handler (s : State) (c : Channel) (x : StrikeAccounting) : (s.setStrike c x).handler = s.handler := rfl
@[simp] theorem setStrike_journal (s : State) (c : Channel) (x : StrikeAccounting) : (s.setStrike c x).journal = s.journal := rfl
@[simp] theorem setStrike_status (s : State) (c : Channel) (x : StrikeAccounting) : (s.setStrike c x).status = s.status := rfl
@[simp] theorem setStrike_irqEnable (s : State) (c : Channel) (x : StrikeAccounting) : (s.setStrike c x).irqEnable = s.irqEnable := rfl
@[simp] theorem setStrike_links (s : State) (c : Channel) (x : StrikeAccounting) : (s.setStrike c x).links = s.links := rfl
@[simp] theorem setStrike_trips (s : State) (c : Channel) (x : StrikeAccounting) : (s.setStrike c x).trips = s.trips := rfl
@[simp] theorem setStrike_pending (s : State) (c : Channel) (x : StrikeAccounting) : (s.setStrike c x).pending = s.pending := rfl
@[simp] theorem setStrike_chan (s : State) (c : Channel) (x : StrikeAccounting) (k : Channel) : (s.setStrike c x).chan k = s.chan k := rfl
@[simp] theorem setStrike_strike_same (s : State) (c : Channel) (x : StrikeAccounting) : (s.setStrike c x).strike c = x := look_put_same _ _ _
@[simp] theorem setStrike_strike_ne (s : State) (c : Channel) (x : StrikeAccounting) (k : Channel) (h : k ≠ c) :
    (s.setStrike c x).strike k = s.strike k := look_put_ne _ _ _ _ h
@[simp] theorem setStrike_resolver (s : State) (c : Channel) (x : StrikeAccounting) (k : Channel) : (s.setStrike c x).resolver k = s.resolver k := rfl
@[simp] theorem setStrike_monitor (s : State) (c : Channel) (x : StrikeAccounting) (k : Channel) : (s.setStrike c x).monitor k = s.monitor k := rfl
@[simp] theorem setStrike_link (s : State) (c : Channel) (x : StrikeAccounting) (k : Channel) : (s.setStrike c x).link k = s.link k := rfl
@[simp] theorem setStrike_position (s : State) (c : Channel) (x : StrikeAccounting) (k : PositionIx) : (s.setStrike c x).position k = s.position k := rfl
@[simp] theorem setStrike_entry (s : State) (c : Channel) (x : StrikeAccounting) (k : EntryIx) : (s.setStrike c x).entry k = s.entry k := rfl
@[simp] theorem setStrike_buffer (s : State) (c : Channel) (x : StrikeAccounting) (k : BufferIx) : (s.setStrike c x).buffer k = s.buffer k := rfl

/-! setResolver -/

@[simp] theorem setResolver_phase (s : State) (c : Channel) (x : DriveResolver) : (s.setResolver c x).phase = s.phase := rfl
@[simp] theorem setResolver_now (s : State) (c : Channel) (x : DriveResolver) : (s.setResolver c x).now = s.now := rfl
@[simp] theorem setResolver_mem (s : State) (c : Channel) (x : DriveResolver) : (s.setResolver c x).mem = s.mem := rfl
@[simp] theorem setResolver_initialized (s : State) (c : Channel) (x : DriveResolver) : (s.setResolver c x).initialized = s.initialized := rfl
@[simp] theorem setResolver_scanner (s : State) (c : Channel) (x : DriveResolver) : (s.setResolver c x).scanner = s.scanner := rfl
@[simp] theorem setResolver_monitors (s : State) (c : Channel) (x : DriveResolver) : (s.setResolver c x).monitors = s.monitors := rfl
@[simp] theorem setResolver_evaluator (s : State) (c : Channel) (x : DriveResolver) : (s.setResolver c x).evaluator = s.evaluator := rfl
@[simp] theorem setResolver_chans (s : State) (c : Channel) (x : DriveResolver) : (s.setResolver c x).chans = s.chans := rfl
@[simp] theorem setResolver_strikes (s : State) (c : Channel) (x : DriveResolver) : (s.setResolver c x).strikes = s.strikes := rfl
@[simp] theorem setResolver_resolvers (s : State) (c : Channel) (x : DriveResolver) : (s.setResolver c x).resolvers = put s.resolvers c x := rfl
@[simp] theorem setResolver_arbiter (s : State) (c : Channel) (x : DriveResolver) : (s.setResolver c x).arbiter = s.arbiter := rfl
@[simp] theorem setResolver_positions (s : State) (c : Channel) (x : DriveResolver) : (s.setResolver c x).positions = s.positions := rfl
@[simp] theorem setResolver_captures (s : State) (c : Channel) (x : DriveResolver) : (s.setResolver c x).captures = s.captures := rfl
@[simp] theorem setResolver_handler (s : State) (c : Channel) (x : DriveResolver) : (s.setResolver c x).handler = s.handler := rfl
@[simp] theorem setResolver_journal (s : State) (c : Channel) (x : DriveResolver) : (s.setResolver c x).journal = s.journal := rfl
@[simp] theorem setResolver_status (s : State) (c : Channel) (x : DriveResolver) : (s.setResolver c x).status = s.status := rfl
@[simp] theorem setResolver_irqEnable (s : State) (c : Channel) (x : DriveResolver) : (s.setResolver c x).irqEnable = s.irqEnable := rfl
@[simp] theorem setResolver_links (s : State) (c : Channel) (x : DriveResolver) : (s.setResolver c x).links = s.links := rfl
@[simp] theorem setResolver_trips (s : State) (c : Channel) (x : DriveResolver) : (s.setResolver c x).trips = s.trips := rfl
@[simp] theorem setResolver_pending (s : State) (c : Channel) (x : DriveResolver) : (s.setResolver c x).pending = s.pending := rfl
@[simp] theorem setResolver_chan (s : State) (c : Channel) (x : DriveResolver) (k : Channel) : (s.setResolver c x).chan k = s.chan k := rfl
@[simp] theorem setResolver_strike (s : State) (c : Channel) (x : DriveResolver) (k : Channel) : (s.setResolver c x).strike k = s.strike k := rfl
@[simp] theorem setResolver_resolver_same (s : State) (c : Channel) (x : DriveResolver) : (s.setResolver c x).resolver c = x := look_put_same _ _ _
@[simp] theorem setResolver_resolver_ne (s : State) (c : Channel) (x : DriveResolver) (k : Channel) (h : k ≠ c) :
    (s.setResolver c x).resolver k = s.resolver k := look_put_ne _ _ _ _ h
@[simp] theorem setResolver_monitor (s : State) (c : Channel) (x : DriveResolver) (k : Channel) : (s.setResolver c x).monitor k = s.monitor k := rfl
@[simp] theorem setResolver_link (s : State) (c : Channel) (x : DriveResolver) (k : Channel) : (s.setResolver c x).link k = s.link k := rfl
@[simp] theorem setResolver_position (s : State) (c : Channel) (x : DriveResolver) (k : PositionIx) : (s.setResolver c x).position k = s.position k := rfl
@[simp] theorem setResolver_entry (s : State) (c : Channel) (x : DriveResolver) (k : EntryIx) : (s.setResolver c x).entry k = s.entry k := rfl
@[simp] theorem setResolver_buffer (s : State) (c : Channel) (x : DriveResolver) (k : BufferIx) : (s.setResolver c x).buffer k = s.buffer k := rfl

/-! setArbiter -/

@[simp] theorem setArbiter_phase (s : State) (x : Arbiter) : (s.setArbiter x).phase = s.phase := rfl
@[simp] theorem setArbiter_now (s : State) (x : Arbiter) : (s.setArbiter x).now = s.now := rfl
@[simp] theorem setArbiter_mem (s : State) (x : Arbiter) : (s.setArbiter x).mem = s.mem := rfl
@[simp] theorem setArbiter_initialized (s : State) (x : Arbiter) : (s.setArbiter x).initialized = s.initialized := rfl
@[simp] theorem setArbiter_scanner (s : State) (x : Arbiter) : (s.setArbiter x).scanner = s.scanner := rfl
@[simp] theorem setArbiter_monitors (s : State) (x : Arbiter) : (s.setArbiter x).monitors = s.monitors := rfl
@[simp] theorem setArbiter_evaluator (s : State) (x : Arbiter) : (s.setArbiter x).evaluator = s.evaluator := rfl
@[simp] theorem setArbiter_chans (s : State) (x : Arbiter) : (s.setArbiter x).chans = s.chans := rfl
@[simp] theorem setArbiter_strikes (s : State) (x : Arbiter) : (s.setArbiter x).strikes = s.strikes := rfl
@[simp] theorem setArbiter_resolvers (s : State) (x : Arbiter) : (s.setArbiter x).resolvers = s.resolvers := rfl
@[simp] theorem setArbiter_arbiter (s : State) (x : Arbiter) : (s.setArbiter x).arbiter = x := rfl
@[simp] theorem setArbiter_positions (s : State) (x : Arbiter) : (s.setArbiter x).positions = s.positions := rfl
@[simp] theorem setArbiter_captures (s : State) (x : Arbiter) : (s.setArbiter x).captures = s.captures := rfl
@[simp] theorem setArbiter_handler (s : State) (x : Arbiter) : (s.setArbiter x).handler = s.handler := rfl
@[simp] theorem setArbiter_journal (s : State) (x : Arbiter) : (s.setArbiter x).journal = s.journal := rfl
@[simp] theorem setArbiter_status (s : State) (x : Arbiter) : (s.setArbiter x).status = s.status := rfl
@[simp] theorem setArbiter_irqEnable (s : State) (x : Arbiter) : (s.setArbiter x).irqEnable = s.irqEnable := rfl
@[simp] theorem setArbiter_links (s : State) (x : Arbiter) : (s.setArbiter x).links = s.links := rfl
@[simp] theorem setArbiter_trips (s : State) (x : Arbiter) : (s.setArbiter x).trips = s.trips := rfl
@[simp] theorem setArbiter_pending (s : State) (x : Arbiter) : (s.setArbiter x).pending = s.pending := rfl
@[simp] theorem setArbiter_chan (s : State) (x : Arbiter) (k : Channel) : (s.setArbiter x).chan k = s.chan k := rfl
@[simp] theorem setArbiter_strike (s : State) (x : Arbiter) (k : Channel) : (s.setArbiter x).strike k = s.strike k := rfl
@[simp] theorem setArbiter_resolver (s : State) (x : Arbiter) (k : Channel) : (s.setArbiter x).resolver k = s.resolver k := rfl
@[simp] theorem setArbiter_monitor (s : State) (x : Arbiter) (k : Channel) : (s.setArbiter x).monitor k = s.monitor k := rfl
@[simp] theorem setArbiter_link (s : State) (x : Arbiter) (k : Channel) : (s.setArbiter x).link k = s.link k := rfl
@[simp] theorem setArbiter_position (s : State) (x : Arbiter) (k : PositionIx) : (s.setArbiter x).position k = s.position k := rfl
@[simp] theorem setArbiter_entry (s : State) (x : Arbiter) (k : EntryIx) : (s.setArbiter x).entry k = s.entry k := rfl
@[simp] theorem setArbiter_buffer (s : State) (x : Arbiter) (k : BufferIx) : (s.setArbiter x).buffer k = s.buffer k := rfl

/-! setPosition -/

@[simp] theorem setPosition_phase (s : State) (p : PositionIx) (x : PositionRecord) : (s.setPosition p x).phase = s.phase := rfl
@[simp] theorem setPosition_now (s : State) (p : PositionIx) (x : PositionRecord) : (s.setPosition p x).now = s.now := rfl
@[simp] theorem setPosition_mem (s : State) (p : PositionIx) (x : PositionRecord) : (s.setPosition p x).mem = s.mem := rfl
@[simp] theorem setPosition_initialized (s : State) (p : PositionIx) (x : PositionRecord) : (s.setPosition p x).initialized = s.initialized := rfl
@[simp] theorem setPosition_scanner (s : State) (p : PositionIx) (x : PositionRecord) : (s.setPosition p x).scanner = s.scanner := rfl
@[simp] theorem setPosition_monitors (s : State) (p : PositionIx) (x : PositionRecord) : (s.setPosition p x).monitors = s.monitors := rfl
@[simp] theorem setPosition_evaluator (s : State) (p : PositionIx) (x : PositionRecord) : (s.setPosition p x).evaluator = s.evaluator := rfl
@[simp] theorem setPosition_chans (s : State) (p : PositionIx) (x : PositionRecord) : (s.setPosition p x).chans = s.chans := rfl
@[simp] theorem setPosition_strikes (s : State) (p : PositionIx) (x : PositionRecord) : (s.setPosition p x).strikes = s.strikes := rfl
@[simp] theorem setPosition_resolvers (s : State) (p : PositionIx) (x : PositionRecord) : (s.setPosition p x).resolvers = s.resolvers := rfl
@[simp] theorem setPosition_arbiter (s : State) (p : PositionIx) (x : PositionRecord) : (s.setPosition p x).arbiter = s.arbiter := rfl
@[simp] theorem setPosition_positions (s : State) (p : PositionIx) (x : PositionRecord) : (s.setPosition p x).positions = put s.positions p x := rfl
@[simp] theorem setPosition_captures (s : State) (p : PositionIx) (x : PositionRecord) : (s.setPosition p x).captures = s.captures := rfl
@[simp] theorem setPosition_handler (s : State) (p : PositionIx) (x : PositionRecord) : (s.setPosition p x).handler = s.handler := rfl
@[simp] theorem setPosition_journal (s : State) (p : PositionIx) (x : PositionRecord) : (s.setPosition p x).journal = s.journal := rfl
@[simp] theorem setPosition_status (s : State) (p : PositionIx) (x : PositionRecord) : (s.setPosition p x).status = s.status := rfl
@[simp] theorem setPosition_irqEnable (s : State) (p : PositionIx) (x : PositionRecord) : (s.setPosition p x).irqEnable = s.irqEnable := rfl
@[simp] theorem setPosition_links (s : State) (p : PositionIx) (x : PositionRecord) : (s.setPosition p x).links = s.links := rfl
@[simp] theorem setPosition_trips (s : State) (p : PositionIx) (x : PositionRecord) : (s.setPosition p x).trips = s.trips := rfl
@[simp] theorem setPosition_pending (s : State) (p : PositionIx) (x : PositionRecord) : (s.setPosition p x).pending = s.pending := rfl
@[simp] theorem setPosition_chan (s : State) (p : PositionIx) (x : PositionRecord) (k : Channel) : (s.setPosition p x).chan k = s.chan k := rfl
@[simp] theorem setPosition_strike (s : State) (p : PositionIx) (x : PositionRecord) (k : Channel) : (s.setPosition p x).strike k = s.strike k := rfl
@[simp] theorem setPosition_resolver (s : State) (p : PositionIx) (x : PositionRecord) (k : Channel) : (s.setPosition p x).resolver k = s.resolver k := rfl
@[simp] theorem setPosition_monitor (s : State) (p : PositionIx) (x : PositionRecord) (k : Channel) : (s.setPosition p x).monitor k = s.monitor k := rfl
@[simp] theorem setPosition_link (s : State) (p : PositionIx) (x : PositionRecord) (k : Channel) : (s.setPosition p x).link k = s.link k := rfl
@[simp] theorem setPosition_position_same (s : State) (p : PositionIx) (x : PositionRecord) : (s.setPosition p x).position p = x := look_put_same _ _ _
@[simp] theorem setPosition_position_ne (s : State) (p : PositionIx) (x : PositionRecord) (k : PositionIx) (h : k ≠ p) :
    (s.setPosition p x).position k = s.position k := look_put_ne _ _ _ _ h
@[simp] theorem setPosition_entry (s : State) (p : PositionIx) (x : PositionRecord) (k : EntryIx) : (s.setPosition p x).entry k = s.entry k := rfl
@[simp] theorem setPosition_buffer (s : State) (p : PositionIx) (x : PositionRecord) (k : BufferIx) : (s.setPosition p x).buffer k = s.buffer k := rfl

/-! setCaptures -/

@[simp] theorem setCaptures_phase (s : State) (x : CaptureUnit) : (s.setCaptures x).phase = s.phase := rfl
@[simp] theorem setCaptures_now (s : State) (x : CaptureUnit) : (s.setCaptures x).now = s.now := rfl
@[simp] theorem setCaptures_mem (s : State) (x : CaptureUnit) : (s.setCaptures x).mem = s.mem := rfl
@[simp] theorem setCaptures_initialized (s : State) (x : CaptureUnit) : (s.setCaptures x).initialized = s.initialized := rfl
@[simp] theorem setCaptures_scanner (s : State) (x : CaptureUnit) : (s.setCaptures x).scanner = s.scanner := rfl
@[simp] theorem setCaptures_monitors (s : State) (x : CaptureUnit) : (s.setCaptures x).monitors = s.monitors := rfl
@[simp] theorem setCaptures_evaluator (s : State) (x : CaptureUnit) : (s.setCaptures x).evaluator = s.evaluator := rfl
@[simp] theorem setCaptures_chans (s : State) (x : CaptureUnit) : (s.setCaptures x).chans = s.chans := rfl
@[simp] theorem setCaptures_strikes (s : State) (x : CaptureUnit) : (s.setCaptures x).strikes = s.strikes := rfl
@[simp] theorem setCaptures_resolvers (s : State) (x : CaptureUnit) : (s.setCaptures x).resolvers = s.resolvers := rfl
@[simp] theorem setCaptures_arbiter (s : State) (x : CaptureUnit) : (s.setCaptures x).arbiter = s.arbiter := rfl
@[simp] theorem setCaptures_positions (s : State) (x : CaptureUnit) : (s.setCaptures x).positions = s.positions := rfl
@[simp] theorem setCaptures_captures (s : State) (x : CaptureUnit) : (s.setCaptures x).captures = x := rfl
@[simp] theorem setCaptures_handler (s : State) (x : CaptureUnit) : (s.setCaptures x).handler = s.handler := rfl
@[simp] theorem setCaptures_journal (s : State) (x : CaptureUnit) : (s.setCaptures x).journal = s.journal := rfl
@[simp] theorem setCaptures_status (s : State) (x : CaptureUnit) : (s.setCaptures x).status = s.status := rfl
@[simp] theorem setCaptures_irqEnable (s : State) (x : CaptureUnit) : (s.setCaptures x).irqEnable = s.irqEnable := rfl
@[simp] theorem setCaptures_links (s : State) (x : CaptureUnit) : (s.setCaptures x).links = s.links := rfl
@[simp] theorem setCaptures_trips (s : State) (x : CaptureUnit) : (s.setCaptures x).trips = s.trips := rfl
@[simp] theorem setCaptures_pending (s : State) (x : CaptureUnit) : (s.setCaptures x).pending = s.pending := rfl
@[simp] theorem setCaptures_chan (s : State) (x : CaptureUnit) (k : Channel) : (s.setCaptures x).chan k = s.chan k := rfl
@[simp] theorem setCaptures_strike (s : State) (x : CaptureUnit) (k : Channel) : (s.setCaptures x).strike k = s.strike k := rfl
@[simp] theorem setCaptures_resolver (s : State) (x : CaptureUnit) (k : Channel) : (s.setCaptures x).resolver k = s.resolver k := rfl
@[simp] theorem setCaptures_monitor (s : State) (x : CaptureUnit) (k : Channel) : (s.setCaptures x).monitor k = s.monitor k := rfl
@[simp] theorem setCaptures_link (s : State) (x : CaptureUnit) (k : Channel) : (s.setCaptures x).link k = s.link k := rfl
@[simp] theorem setCaptures_position (s : State) (x : CaptureUnit) (k : PositionIx) : (s.setCaptures x).position k = s.position k := rfl
@[simp] theorem setCaptures_entry (s : State) (x : CaptureUnit) (k : EntryIx) : (s.setCaptures x).entry k = s.entry k := rfl
@[simp] theorem setCaptures_buffer (s : State) (x : CaptureUnit) (k : BufferIx) : (s.setCaptures x).buffer k = look x.buffers k := rfl

/-! setHandler -/

@[simp] theorem setHandler_phase (s : State) (x : RequestHandler) : (s.setHandler x).phase = s.phase := rfl
@[simp] theorem setHandler_now (s : State) (x : RequestHandler) : (s.setHandler x).now = s.now := rfl
@[simp] theorem setHandler_mem (s : State) (x : RequestHandler) : (s.setHandler x).mem = s.mem := rfl
@[simp] theorem setHandler_initialized (s : State) (x : RequestHandler) : (s.setHandler x).initialized = s.initialized := rfl
@[simp] theorem setHandler_scanner (s : State) (x : RequestHandler) : (s.setHandler x).scanner = s.scanner := rfl
@[simp] theorem setHandler_monitors (s : State) (x : RequestHandler) : (s.setHandler x).monitors = s.monitors := rfl
@[simp] theorem setHandler_evaluator (s : State) (x : RequestHandler) : (s.setHandler x).evaluator = s.evaluator := rfl
@[simp] theorem setHandler_chans (s : State) (x : RequestHandler) : (s.setHandler x).chans = s.chans := rfl
@[simp] theorem setHandler_strikes (s : State) (x : RequestHandler) : (s.setHandler x).strikes = s.strikes := rfl
@[simp] theorem setHandler_resolvers (s : State) (x : RequestHandler) : (s.setHandler x).resolvers = s.resolvers := rfl
@[simp] theorem setHandler_arbiter (s : State) (x : RequestHandler) : (s.setHandler x).arbiter = s.arbiter := rfl
@[simp] theorem setHandler_positions (s : State) (x : RequestHandler) : (s.setHandler x).positions = s.positions := rfl
@[simp] theorem setHandler_captures (s : State) (x : RequestHandler) : (s.setHandler x).captures = s.captures := rfl
@[simp] theorem setHandler_handler (s : State) (x : RequestHandler) : (s.setHandler x).handler = x := rfl
@[simp] theorem setHandler_journal (s : State) (x : RequestHandler) : (s.setHandler x).journal = s.journal := rfl
@[simp] theorem setHandler_status (s : State) (x : RequestHandler) : (s.setHandler x).status = s.status := rfl
@[simp] theorem setHandler_irqEnable (s : State) (x : RequestHandler) : (s.setHandler x).irqEnable = s.irqEnable := rfl
@[simp] theorem setHandler_links (s : State) (x : RequestHandler) : (s.setHandler x).links = s.links := rfl
@[simp] theorem setHandler_trips (s : State) (x : RequestHandler) : (s.setHandler x).trips = s.trips := rfl
@[simp] theorem setHandler_pending (s : State) (x : RequestHandler) : (s.setHandler x).pending = s.pending := rfl
@[simp] theorem setHandler_chan (s : State) (x : RequestHandler) (k : Channel) : (s.setHandler x).chan k = s.chan k := rfl
@[simp] theorem setHandler_strike (s : State) (x : RequestHandler) (k : Channel) : (s.setHandler x).strike k = s.strike k := rfl
@[simp] theorem setHandler_resolver (s : State) (x : RequestHandler) (k : Channel) : (s.setHandler x).resolver k = s.resolver k := rfl
@[simp] theorem setHandler_monitor (s : State) (x : RequestHandler) (k : Channel) : (s.setHandler x).monitor k = s.monitor k := rfl
@[simp] theorem setHandler_link (s : State) (x : RequestHandler) (k : Channel) : (s.setHandler x).link k = s.link k := rfl
@[simp] theorem setHandler_position (s : State) (x : RequestHandler) (k : PositionIx) : (s.setHandler x).position k = s.position k := rfl
@[simp] theorem setHandler_entry (s : State) (x : RequestHandler) (k : EntryIx) : (s.setHandler x).entry k = s.entry k := rfl
@[simp] theorem setHandler_buffer (s : State) (x : RequestHandler) (k : BufferIx) : (s.setHandler x).buffer k = s.buffer k := rfl

/-! setJournal -/

@[simp] theorem setJournal_phase (s : State) (x : JournalWriter) : (s.setJournal x).phase = s.phase := rfl
@[simp] theorem setJournal_now (s : State) (x : JournalWriter) : (s.setJournal x).now = s.now := rfl
@[simp] theorem setJournal_mem (s : State) (x : JournalWriter) : (s.setJournal x).mem = s.mem := rfl
@[simp] theorem setJournal_initialized (s : State) (x : JournalWriter) : (s.setJournal x).initialized = s.initialized := rfl
@[simp] theorem setJournal_scanner (s : State) (x : JournalWriter) : (s.setJournal x).scanner = s.scanner := rfl
@[simp] theorem setJournal_monitors (s : State) (x : JournalWriter) : (s.setJournal x).monitors = s.monitors := rfl
@[simp] theorem setJournal_evaluator (s : State) (x : JournalWriter) : (s.setJournal x).evaluator = s.evaluator := rfl
@[simp] theorem setJournal_chans (s : State) (x : JournalWriter) : (s.setJournal x).chans = s.chans := rfl
@[simp] theorem setJournal_strikes (s : State) (x : JournalWriter) : (s.setJournal x).strikes = s.strikes := rfl
@[simp] theorem setJournal_resolvers (s : State) (x : JournalWriter) : (s.setJournal x).resolvers = s.resolvers := rfl
@[simp] theorem setJournal_arbiter (s : State) (x : JournalWriter) : (s.setJournal x).arbiter = s.arbiter := rfl
@[simp] theorem setJournal_positions (s : State) (x : JournalWriter) : (s.setJournal x).positions = s.positions := rfl
@[simp] theorem setJournal_captures (s : State) (x : JournalWriter) : (s.setJournal x).captures = s.captures := rfl
@[simp] theorem setJournal_handler (s : State) (x : JournalWriter) : (s.setJournal x).handler = s.handler := rfl
@[simp] theorem setJournal_journal (s : State) (x : JournalWriter) : (s.setJournal x).journal = x := rfl
@[simp] theorem setJournal_status (s : State) (x : JournalWriter) : (s.setJournal x).status = s.status := rfl
@[simp] theorem setJournal_irqEnable (s : State) (x : JournalWriter) : (s.setJournal x).irqEnable = s.irqEnable := rfl
@[simp] theorem setJournal_links (s : State) (x : JournalWriter) : (s.setJournal x).links = s.links := rfl
@[simp] theorem setJournal_trips (s : State) (x : JournalWriter) : (s.setJournal x).trips = s.trips := rfl
@[simp] theorem setJournal_pending (s : State) (x : JournalWriter) : (s.setJournal x).pending = s.pending := rfl
@[simp] theorem setJournal_chan (s : State) (x : JournalWriter) (k : Channel) : (s.setJournal x).chan k = s.chan k := rfl
@[simp] theorem setJournal_strike (s : State) (x : JournalWriter) (k : Channel) : (s.setJournal x).strike k = s.strike k := rfl
@[simp] theorem setJournal_resolver (s : State) (x : JournalWriter) (k : Channel) : (s.setJournal x).resolver k = s.resolver k := rfl
@[simp] theorem setJournal_monitor (s : State) (x : JournalWriter) (k : Channel) : (s.setJournal x).monitor k = s.monitor k := rfl
@[simp] theorem setJournal_link (s : State) (x : JournalWriter) (k : Channel) : (s.setJournal x).link k = s.link k := rfl
@[simp] theorem setJournal_position (s : State) (x : JournalWriter) (k : PositionIx) : (s.setJournal x).position k = s.position k := rfl
@[simp] theorem setJournal_entry (s : State) (x : JournalWriter) (k : EntryIx) : (s.setJournal x).entry k = s.entry k := rfl
@[simp] theorem setJournal_buffer (s : State) (x : JournalWriter) (k : BufferIx) : (s.setJournal x).buffer k = s.buffer k := rfl

/-! setStatus -/

@[simp] theorem setStatus_phase (s : State) (x : StatusWriter) : (s.setStatus x).phase = s.phase := rfl
@[simp] theorem setStatus_now (s : State) (x : StatusWriter) : (s.setStatus x).now = s.now := rfl
@[simp] theorem setStatus_mem (s : State) (x : StatusWriter) : (s.setStatus x).mem = s.mem := rfl
@[simp] theorem setStatus_initialized (s : State) (x : StatusWriter) : (s.setStatus x).initialized = s.initialized := rfl
@[simp] theorem setStatus_scanner (s : State) (x : StatusWriter) : (s.setStatus x).scanner = s.scanner := rfl
@[simp] theorem setStatus_monitors (s : State) (x : StatusWriter) : (s.setStatus x).monitors = s.monitors := rfl
@[simp] theorem setStatus_evaluator (s : State) (x : StatusWriter) : (s.setStatus x).evaluator = s.evaluator := rfl
@[simp] theorem setStatus_chans (s : State) (x : StatusWriter) : (s.setStatus x).chans = s.chans := rfl
@[simp] theorem setStatus_strikes (s : State) (x : StatusWriter) : (s.setStatus x).strikes = s.strikes := rfl
@[simp] theorem setStatus_resolvers (s : State) (x : StatusWriter) : (s.setStatus x).resolvers = s.resolvers := rfl
@[simp] theorem setStatus_arbiter (s : State) (x : StatusWriter) : (s.setStatus x).arbiter = s.arbiter := rfl
@[simp] theorem setStatus_positions (s : State) (x : StatusWriter) : (s.setStatus x).positions = s.positions := rfl
@[simp] theorem setStatus_captures (s : State) (x : StatusWriter) : (s.setStatus x).captures = s.captures := rfl
@[simp] theorem setStatus_handler (s : State) (x : StatusWriter) : (s.setStatus x).handler = s.handler := rfl
@[simp] theorem setStatus_journal (s : State) (x : StatusWriter) : (s.setStatus x).journal = s.journal := rfl
@[simp] theorem setStatus_status (s : State) (x : StatusWriter) : (s.setStatus x).status = x := rfl
@[simp] theorem setStatus_irqEnable (s : State) (x : StatusWriter) : (s.setStatus x).irqEnable = s.irqEnable := rfl
@[simp] theorem setStatus_links (s : State) (x : StatusWriter) : (s.setStatus x).links = s.links := rfl
@[simp] theorem setStatus_trips (s : State) (x : StatusWriter) : (s.setStatus x).trips = s.trips := rfl
@[simp] theorem setStatus_pending (s : State) (x : StatusWriter) : (s.setStatus x).pending = s.pending := rfl
@[simp] theorem setStatus_chan (s : State) (x : StatusWriter) (k : Channel) : (s.setStatus x).chan k = s.chan k := rfl
@[simp] theorem setStatus_strike (s : State) (x : StatusWriter) (k : Channel) : (s.setStatus x).strike k = s.strike k := rfl
@[simp] theorem setStatus_resolver (s : State) (x : StatusWriter) (k : Channel) : (s.setStatus x).resolver k = s.resolver k := rfl
@[simp] theorem setStatus_monitor (s : State) (x : StatusWriter) (k : Channel) : (s.setStatus x).monitor k = s.monitor k := rfl
@[simp] theorem setStatus_link (s : State) (x : StatusWriter) (k : Channel) : (s.setStatus x).link k = s.link k := rfl
@[simp] theorem setStatus_position (s : State) (x : StatusWriter) (k : PositionIx) : (s.setStatus x).position k = s.position k := rfl
@[simp] theorem setStatus_entry (s : State) (x : StatusWriter) (k : EntryIx) : (s.setStatus x).entry k = s.entry k := rfl
@[simp] theorem setStatus_buffer (s : State) (x : StatusWriter) (k : BufferIx) : (s.setStatus x).buffer k = s.buffer k := rfl

/-! setLink -/

@[simp] theorem setLink_phase (s : State) (c : Channel) (x : ChannelLinks) : (s.setLink c x).phase = s.phase := rfl
@[simp] theorem setLink_now (s : State) (c : Channel) (x : ChannelLinks) : (s.setLink c x).now = s.now := rfl
@[simp] theorem setLink_mem (s : State) (c : Channel) (x : ChannelLinks) : (s.setLink c x).mem = s.mem := rfl
@[simp] theorem setLink_initialized (s : State) (c : Channel) (x : ChannelLinks) : (s.setLink c x).initialized = s.initialized := rfl
@[simp] theorem setLink_scanner (s : State) (c : Channel) (x : ChannelLinks) : (s.setLink c x).scanner = s.scanner := rfl
@[simp] theorem setLink_monitors (s : State) (c : Channel) (x : ChannelLinks) : (s.setLink c x).monitors = s.monitors := rfl
@[simp] theorem setLink_evaluator (s : State) (c : Channel) (x : ChannelLinks) : (s.setLink c x).evaluator = s.evaluator := rfl
@[simp] theorem setLink_chans (s : State) (c : Channel) (x : ChannelLinks) : (s.setLink c x).chans = s.chans := rfl
@[simp] theorem setLink_strikes (s : State) (c : Channel) (x : ChannelLinks) : (s.setLink c x).strikes = s.strikes := rfl
@[simp] theorem setLink_resolvers (s : State) (c : Channel) (x : ChannelLinks) : (s.setLink c x).resolvers = s.resolvers := rfl
@[simp] theorem setLink_arbiter (s : State) (c : Channel) (x : ChannelLinks) : (s.setLink c x).arbiter = s.arbiter := rfl
@[simp] theorem setLink_positions (s : State) (c : Channel) (x : ChannelLinks) : (s.setLink c x).positions = s.positions := rfl
@[simp] theorem setLink_captures (s : State) (c : Channel) (x : ChannelLinks) : (s.setLink c x).captures = s.captures := rfl
@[simp] theorem setLink_handler (s : State) (c : Channel) (x : ChannelLinks) : (s.setLink c x).handler = s.handler := rfl
@[simp] theorem setLink_journal (s : State) (c : Channel) (x : ChannelLinks) : (s.setLink c x).journal = s.journal := rfl
@[simp] theorem setLink_status (s : State) (c : Channel) (x : ChannelLinks) : (s.setLink c x).status = s.status := rfl
@[simp] theorem setLink_irqEnable (s : State) (c : Channel) (x : ChannelLinks) : (s.setLink c x).irqEnable = s.irqEnable := rfl
@[simp] theorem setLink_links (s : State) (c : Channel) (x : ChannelLinks) : (s.setLink c x).links = put s.links c x := rfl
@[simp] theorem setLink_trips (s : State) (c : Channel) (x : ChannelLinks) : (s.setLink c x).trips = s.trips := rfl
@[simp] theorem setLink_pending (s : State) (c : Channel) (x : ChannelLinks) : (s.setLink c x).pending = s.pending := rfl
@[simp] theorem setLink_chan (s : State) (c : Channel) (x : ChannelLinks) (k : Channel) : (s.setLink c x).chan k = s.chan k := rfl
@[simp] theorem setLink_strike (s : State) (c : Channel) (x : ChannelLinks) (k : Channel) : (s.setLink c x).strike k = s.strike k := rfl
@[simp] theorem setLink_resolver (s : State) (c : Channel) (x : ChannelLinks) (k : Channel) : (s.setLink c x).resolver k = s.resolver k := rfl
@[simp] theorem setLink_monitor (s : State) (c : Channel) (x : ChannelLinks) (k : Channel) : (s.setLink c x).monitor k = s.monitor k := rfl
@[simp] theorem setLink_link_same (s : State) (c : Channel) (x : ChannelLinks) : (s.setLink c x).link c = x := look_put_same _ _ _
@[simp] theorem setLink_link_ne (s : State) (c : Channel) (x : ChannelLinks) (k : Channel) (h : k ≠ c) :
    (s.setLink c x).link k = s.link k := look_put_ne _ _ _ _ h
@[simp] theorem setLink_position (s : State) (c : Channel) (x : ChannelLinks) (k : PositionIx) : (s.setLink c x).position k = s.position k := rfl
@[simp] theorem setLink_entry (s : State) (c : Channel) (x : ChannelLinks) (k : EntryIx) : (s.setLink c x).entry k = s.entry k := rfl
@[simp] theorem setLink_buffer (s : State) (c : Channel) (x : ChannelLinks) (k : BufferIx) : (s.setLink c x).buffer k = s.buffer k := rfl

/-! setTrips -/

@[simp] theorem setTrips_phase (s : State) (x : List TripDelivery) : (s.setTrips x).phase = s.phase := rfl
@[simp] theorem setTrips_now (s : State) (x : List TripDelivery) : (s.setTrips x).now = s.now := rfl
@[simp] theorem setTrips_mem (s : State) (x : List TripDelivery) : (s.setTrips x).mem = s.mem := rfl
@[simp] theorem setTrips_initialized (s : State) (x : List TripDelivery) : (s.setTrips x).initialized = s.initialized := rfl
@[simp] theorem setTrips_scanner (s : State) (x : List TripDelivery) : (s.setTrips x).scanner = s.scanner := rfl
@[simp] theorem setTrips_monitors (s : State) (x : List TripDelivery) : (s.setTrips x).monitors = s.monitors := rfl
@[simp] theorem setTrips_evaluator (s : State) (x : List TripDelivery) : (s.setTrips x).evaluator = s.evaluator := rfl
@[simp] theorem setTrips_chans (s : State) (x : List TripDelivery) : (s.setTrips x).chans = s.chans := rfl
@[simp] theorem setTrips_strikes (s : State) (x : List TripDelivery) : (s.setTrips x).strikes = s.strikes := rfl
@[simp] theorem setTrips_resolvers (s : State) (x : List TripDelivery) : (s.setTrips x).resolvers = s.resolvers := rfl
@[simp] theorem setTrips_arbiter (s : State) (x : List TripDelivery) : (s.setTrips x).arbiter = s.arbiter := rfl
@[simp] theorem setTrips_positions (s : State) (x : List TripDelivery) : (s.setTrips x).positions = s.positions := rfl
@[simp] theorem setTrips_captures (s : State) (x : List TripDelivery) : (s.setTrips x).captures = s.captures := rfl
@[simp] theorem setTrips_handler (s : State) (x : List TripDelivery) : (s.setTrips x).handler = s.handler := rfl
@[simp] theorem setTrips_journal (s : State) (x : List TripDelivery) : (s.setTrips x).journal = s.journal := rfl
@[simp] theorem setTrips_status (s : State) (x : List TripDelivery) : (s.setTrips x).status = s.status := rfl
@[simp] theorem setTrips_irqEnable (s : State) (x : List TripDelivery) : (s.setTrips x).irqEnable = s.irqEnable := rfl
@[simp] theorem setTrips_links (s : State) (x : List TripDelivery) : (s.setTrips x).links = s.links := rfl
@[simp] theorem setTrips_trips (s : State) (x : List TripDelivery) : (s.setTrips x).trips = x := rfl
@[simp] theorem setTrips_pending (s : State) (x : List TripDelivery) : (s.setTrips x).pending = s.pending := rfl
@[simp] theorem setTrips_chan (s : State) (x : List TripDelivery) (k : Channel) : (s.setTrips x).chan k = s.chan k := rfl
@[simp] theorem setTrips_strike (s : State) (x : List TripDelivery) (k : Channel) : (s.setTrips x).strike k = s.strike k := rfl
@[simp] theorem setTrips_resolver (s : State) (x : List TripDelivery) (k : Channel) : (s.setTrips x).resolver k = s.resolver k := rfl
@[simp] theorem setTrips_monitor (s : State) (x : List TripDelivery) (k : Channel) : (s.setTrips x).monitor k = s.monitor k := rfl
@[simp] theorem setTrips_link (s : State) (x : List TripDelivery) (k : Channel) : (s.setTrips x).link k = s.link k := rfl
@[simp] theorem setTrips_position (s : State) (x : List TripDelivery) (k : PositionIx) : (s.setTrips x).position k = s.position k := rfl
@[simp] theorem setTrips_entry (s : State) (x : List TripDelivery) (k : EntryIx) : (s.setTrips x).entry k = s.entry k := rfl
@[simp] theorem setTrips_buffer (s : State) (x : List TripDelivery) (k : BufferIx) : (s.setTrips x).buffer k = s.buffer k := rfl

/-! setEntry -/

@[simp] theorem setEntry_phase (s : State) (i : EntryIx) (x : LiveEntry) : (s.setEntry i x).phase = s.phase := rfl
@[simp] theorem setEntry_now (s : State) (i : EntryIx) (x : LiveEntry) : (s.setEntry i x).now = s.now := rfl
@[simp] theorem setEntry_mem (s : State) (i : EntryIx) (x : LiveEntry) : (s.setEntry i x).mem = s.mem := rfl
@[simp] theorem setEntry_initialized (s : State) (i : EntryIx) (x : LiveEntry) : (s.setEntry i x).initialized = s.initialized := rfl
@[simp] theorem setEntry_scanner (s : State) (i : EntryIx) (x : LiveEntry) : (s.setEntry i x).scanner = s.scanner := rfl
@[simp] theorem setEntry_monitors (s : State) (i : EntryIx) (x : LiveEntry) : (s.setEntry i x).monitors = s.monitors := rfl
@[simp] theorem setEntry_evaluator (s : State) (i : EntryIx) (x : LiveEntry) : (s.setEntry i x).evaluator = { s.evaluator with entries := put s.evaluator.entries i x } := rfl
@[simp] theorem setEntry_chans (s : State) (i : EntryIx) (x : LiveEntry) : (s.setEntry i x).chans = s.chans := rfl
@[simp] theorem setEntry_strikes (s : State) (i : EntryIx) (x : LiveEntry) : (s.setEntry i x).strikes = s.strikes := rfl
@[simp] theorem setEntry_resolvers (s : State) (i : EntryIx) (x : LiveEntry) : (s.setEntry i x).resolvers = s.resolvers := rfl
@[simp] theorem setEntry_arbiter (s : State) (i : EntryIx) (x : LiveEntry) : (s.setEntry i x).arbiter = s.arbiter := rfl
@[simp] theorem setEntry_positions (s : State) (i : EntryIx) (x : LiveEntry) : (s.setEntry i x).positions = s.positions := rfl
@[simp] theorem setEntry_captures (s : State) (i : EntryIx) (x : LiveEntry) : (s.setEntry i x).captures = s.captures := rfl
@[simp] theorem setEntry_handler (s : State) (i : EntryIx) (x : LiveEntry) : (s.setEntry i x).handler = s.handler := rfl
@[simp] theorem setEntry_journal (s : State) (i : EntryIx) (x : LiveEntry) : (s.setEntry i x).journal = s.journal := rfl
@[simp] theorem setEntry_status (s : State) (i : EntryIx) (x : LiveEntry) : (s.setEntry i x).status = s.status := rfl
@[simp] theorem setEntry_irqEnable (s : State) (i : EntryIx) (x : LiveEntry) : (s.setEntry i x).irqEnable = s.irqEnable := rfl
@[simp] theorem setEntry_links (s : State) (i : EntryIx) (x : LiveEntry) : (s.setEntry i x).links = s.links := rfl
@[simp] theorem setEntry_trips (s : State) (i : EntryIx) (x : LiveEntry) : (s.setEntry i x).trips = s.trips := rfl
@[simp] theorem setEntry_pending (s : State) (i : EntryIx) (x : LiveEntry) : (s.setEntry i x).pending = s.pending := rfl
@[simp] theorem setEntry_chan (s : State) (i : EntryIx) (x : LiveEntry) (k : Channel) : (s.setEntry i x).chan k = s.chan k := rfl
@[simp] theorem setEntry_strike (s : State) (i : EntryIx) (x : LiveEntry) (k : Channel) : (s.setEntry i x).strike k = s.strike k := rfl
@[simp] theorem setEntry_resolver (s : State) (i : EntryIx) (x : LiveEntry) (k : Channel) : (s.setEntry i x).resolver k = s.resolver k := rfl
@[simp] theorem setEntry_monitor (s : State) (i : EntryIx) (x : LiveEntry) (k : Channel) : (s.setEntry i x).monitor k = s.monitor k := rfl
@[simp] theorem setEntry_link (s : State) (i : EntryIx) (x : LiveEntry) (k : Channel) : (s.setEntry i x).link k = s.link k := rfl
@[simp] theorem setEntry_position (s : State) (i : EntryIx) (x : LiveEntry) (k : PositionIx) : (s.setEntry i x).position k = s.position k := rfl
@[simp] theorem setEntry_entry_same (s : State) (i : EntryIx) (x : LiveEntry) : (s.setEntry i x).entry i = x := look_put_same _ _ _
@[simp] theorem setEntry_entry_ne (s : State) (i : EntryIx) (x : LiveEntry) (k : EntryIx) (h : k ≠ i) :
    (s.setEntry i x).entry k = s.entry k := look_put_ne _ _ _ _ h
@[simp] theorem setEntry_buffer (s : State) (i : EntryIx) (x : LiveEntry) (k : BufferIx) : (s.setEntry i x).buffer k = s.buffer k := rfl

/-! setBuffer -/

@[simp] theorem setBuffer_phase (s : State) (b : BufferIx) (x : CaptureBuffer) : (s.setBuffer b x).phase = s.phase := rfl
@[simp] theorem setBuffer_now (s : State) (b : BufferIx) (x : CaptureBuffer) : (s.setBuffer b x).now = s.now := rfl
@[simp] theorem setBuffer_mem (s : State) (b : BufferIx) (x : CaptureBuffer) : (s.setBuffer b x).mem = s.mem := rfl
@[simp] theorem setBuffer_initialized (s : State) (b : BufferIx) (x : CaptureBuffer) : (s.setBuffer b x).initialized = s.initialized := rfl
@[simp] theorem setBuffer_scanner (s : State) (b : BufferIx) (x : CaptureBuffer) : (s.setBuffer b x).scanner = s.scanner := rfl
@[simp] theorem setBuffer_monitors (s : State) (b : BufferIx) (x : CaptureBuffer) : (s.setBuffer b x).monitors = s.monitors := rfl
@[simp] theorem setBuffer_evaluator (s : State) (b : BufferIx) (x : CaptureBuffer) : (s.setBuffer b x).evaluator = s.evaluator := rfl
@[simp] theorem setBuffer_chans (s : State) (b : BufferIx) (x : CaptureBuffer) : (s.setBuffer b x).chans = s.chans := rfl
@[simp] theorem setBuffer_strikes (s : State) (b : BufferIx) (x : CaptureBuffer) : (s.setBuffer b x).strikes = s.strikes := rfl
@[simp] theorem setBuffer_resolvers (s : State) (b : BufferIx) (x : CaptureBuffer) : (s.setBuffer b x).resolvers = s.resolvers := rfl
@[simp] theorem setBuffer_arbiter (s : State) (b : BufferIx) (x : CaptureBuffer) : (s.setBuffer b x).arbiter = s.arbiter := rfl
@[simp] theorem setBuffer_positions (s : State) (b : BufferIx) (x : CaptureBuffer) : (s.setBuffer b x).positions = s.positions := rfl
@[simp] theorem setBuffer_captures (s : State) (b : BufferIx) (x : CaptureBuffer) : (s.setBuffer b x).captures = { s.captures with buffers := put s.captures.buffers b x } := rfl
@[simp] theorem setBuffer_handler (s : State) (b : BufferIx) (x : CaptureBuffer) : (s.setBuffer b x).handler = s.handler := rfl
@[simp] theorem setBuffer_journal (s : State) (b : BufferIx) (x : CaptureBuffer) : (s.setBuffer b x).journal = s.journal := rfl
@[simp] theorem setBuffer_status (s : State) (b : BufferIx) (x : CaptureBuffer) : (s.setBuffer b x).status = s.status := rfl
@[simp] theorem setBuffer_irqEnable (s : State) (b : BufferIx) (x : CaptureBuffer) : (s.setBuffer b x).irqEnable = s.irqEnable := rfl
@[simp] theorem setBuffer_links (s : State) (b : BufferIx) (x : CaptureBuffer) : (s.setBuffer b x).links = s.links := rfl
@[simp] theorem setBuffer_trips (s : State) (b : BufferIx) (x : CaptureBuffer) : (s.setBuffer b x).trips = s.trips := rfl
@[simp] theorem setBuffer_pending (s : State) (b : BufferIx) (x : CaptureBuffer) : (s.setBuffer b x).pending = s.pending := rfl
@[simp] theorem setBuffer_chan (s : State) (b : BufferIx) (x : CaptureBuffer) (k : Channel) : (s.setBuffer b x).chan k = s.chan k := rfl
@[simp] theorem setBuffer_strike (s : State) (b : BufferIx) (x : CaptureBuffer) (k : Channel) : (s.setBuffer b x).strike k = s.strike k := rfl
@[simp] theorem setBuffer_resolver (s : State) (b : BufferIx) (x : CaptureBuffer) (k : Channel) : (s.setBuffer b x).resolver k = s.resolver k := rfl
@[simp] theorem setBuffer_monitor (s : State) (b : BufferIx) (x : CaptureBuffer) (k : Channel) : (s.setBuffer b x).monitor k = s.monitor k := rfl
@[simp] theorem setBuffer_link (s : State) (b : BufferIx) (x : CaptureBuffer) (k : Channel) : (s.setBuffer b x).link k = s.link k := rfl
@[simp] theorem setBuffer_position (s : State) (b : BufferIx) (x : CaptureBuffer) (k : PositionIx) : (s.setBuffer b x).position k = s.position k := rfl
@[simp] theorem setBuffer_entry (s : State) (b : BufferIx) (x : CaptureBuffer) (k : EntryIx) : (s.setBuffer b x).entry k = s.entry k := rfl
@[simp] theorem setBuffer_buffer_same (s : State) (b : BufferIx) (x : CaptureBuffer) : (s.setBuffer b x).buffer b = x := look_put_same _ _ _
@[simp] theorem setBuffer_buffer_ne (s : State) (b : BufferIx) (x : CaptureBuffer) (k : BufferIx) (h : k ≠ b) :
    (s.setBuffer b x).buffer k = s.buffer k := look_put_ne _ _ _ _ h

/-! write -/

@[simp] theorem write_phase (s : State) (a : Nat) (bs : List Byte) : (s.write a bs).phase = s.phase := rfl
@[simp] theorem write_now (s : State) (a : Nat) (bs : List Byte) : (s.write a bs).now = s.now := rfl
@[simp] theorem write_mem (s : State) (a : Nat) (bs : List Byte) : (s.write a bs).mem = writeBytes s.mem a bs := rfl
@[simp] theorem write_initialized (s : State) (a : Nat) (bs : List Byte) : (s.write a bs).initialized = s.initialized := rfl
@[simp] theorem write_scanner (s : State) (a : Nat) (bs : List Byte) : (s.write a bs).scanner = s.scanner := rfl
@[simp] theorem write_monitors (s : State) (a : Nat) (bs : List Byte) : (s.write a bs).monitors = s.monitors := rfl
@[simp] theorem write_evaluator (s : State) (a : Nat) (bs : List Byte) : (s.write a bs).evaluator = s.evaluator := rfl
@[simp] theorem write_chans (s : State) (a : Nat) (bs : List Byte) : (s.write a bs).chans = s.chans := rfl
@[simp] theorem write_strikes (s : State) (a : Nat) (bs : List Byte) : (s.write a bs).strikes = s.strikes := rfl
@[simp] theorem write_resolvers (s : State) (a : Nat) (bs : List Byte) : (s.write a bs).resolvers = s.resolvers := rfl
@[simp] theorem write_arbiter (s : State) (a : Nat) (bs : List Byte) : (s.write a bs).arbiter = s.arbiter := rfl
@[simp] theorem write_positions (s : State) (a : Nat) (bs : List Byte) : (s.write a bs).positions = s.positions := rfl
@[simp] theorem write_captures (s : State) (a : Nat) (bs : List Byte) : (s.write a bs).captures = s.captures := rfl
@[simp] theorem write_handler (s : State) (a : Nat) (bs : List Byte) : (s.write a bs).handler = s.handler := rfl
@[simp] theorem write_journal (s : State) (a : Nat) (bs : List Byte) : (s.write a bs).journal = s.journal := rfl
@[simp] theorem write_status (s : State) (a : Nat) (bs : List Byte) : (s.write a bs).status = s.status := rfl
@[simp] theorem write_irqEnable (s : State) (a : Nat) (bs : List Byte) : (s.write a bs).irqEnable = s.irqEnable := rfl
@[simp] theorem write_links (s : State) (a : Nat) (bs : List Byte) : (s.write a bs).links = s.links := rfl
@[simp] theorem write_trips (s : State) (a : Nat) (bs : List Byte) : (s.write a bs).trips = s.trips := rfl
@[simp] theorem write_pending (s : State) (a : Nat) (bs : List Byte) : (s.write a bs).pending = s.pending := rfl
@[simp] theorem write_chan (s : State) (a : Nat) (bs : List Byte) (k : Channel) : (s.write a bs).chan k = s.chan k := rfl
@[simp] theorem write_strike (s : State) (a : Nat) (bs : List Byte) (k : Channel) : (s.write a bs).strike k = s.strike k := rfl
@[simp] theorem write_resolver (s : State) (a : Nat) (bs : List Byte) (k : Channel) : (s.write a bs).resolver k = s.resolver k := rfl
@[simp] theorem write_monitor (s : State) (a : Nat) (bs : List Byte) (k : Channel) : (s.write a bs).monitor k = s.monitor k := rfl
@[simp] theorem write_link (s : State) (a : Nat) (bs : List Byte) (k : Channel) : (s.write a bs).link k = s.link k := rfl
@[simp] theorem write_position (s : State) (a : Nat) (bs : List Byte) (k : PositionIx) : (s.write a bs).position k = s.position k := rfl
@[simp] theorem write_entry (s : State) (a : Nat) (bs : List Byte) (k : EntryIx) : (s.write a bs).entry k = s.entry k := rfl
@[simp] theorem write_buffer (s : State) (a : Nat) (bs : List Byte) (k : BufferIx) : (s.write a bs).buffer k = s.buffer k := rfl

/-- Two states with the same fields are the same. -/
theorem same {t u : State}
    (h0 : t.phase = u.phase)
    (h1 : t.now = u.now)
    (h2 : t.mem = u.mem)
    (h3 : t.initialized = u.initialized)
    (h4 : t.scanner = u.scanner)
    (h5 : t.monitors = u.monitors)
    (h6 : t.evaluator = u.evaluator)
    (h7 : t.chans = u.chans)
    (h8 : t.strikes = u.strikes)
    (h9 : t.resolvers = u.resolvers)
    (h10 : t.arbiter = u.arbiter)
    (h11 : t.positions = u.positions)
    (h12 : t.captures = u.captures)
    (h13 : t.handler = u.handler)
    (h14 : t.journal = u.journal)
    (h15 : t.status = u.status)
    (h16 : t.irqEnable = u.irqEnable)
    (h17 : t.links = u.links)
    (h18 : t.trips = u.trips)
    (h19 : t.pending = u.pending) : t = u := by
  cases t
  cases u
  simp_all

/-! Writing back what stands there -/

theorem setChan_self (s : State) (c : Channel) : s.setChan c (s.chan c) = s := by simp [setChan, chan]
theorem setStrike_self (s : State) (c : Channel) : s.setStrike c (s.strike c) = s := by simp [setStrike, strike]
theorem setResolver_self (s : State) (c : Channel) : s.setResolver c (s.resolver c) = s := by
  simp [setResolver, resolver]
theorem setLink_self (s : State) (c : Channel) : s.setLink c (s.link c) = s := by simp [setLink, link]
theorem setPosition_self (s : State) (p : PositionIx) : s.setPosition p (s.position p) = s := by
  simp [setPosition, position]

end State

end Sys2Proof.Machine
end

