-- ==== Sys2Proof/Laws/Operations.lean ====
section
/-! SUPPORT. What each shared operation does, said once: the whole state after it where that is one update, and else
the facts a later proof cites. -/

namespace Sys2Proof.Machine

/-! ## Lists of events -/

/-- What every element keeps, the whole list keeps. -/
theorem forEach_keeps {α : Type} (P : State → Prop) (f : α → State → State) (l : List α) :
    ∀ s, (∀ x ∈ l, ∀ t, P t → P (f x t)) → P s → P (forEach l f s) := by
  induction l with
  | nil => intro s _ h; exact h
  | cons x l ih =>
    intro s hf h
    exact ih (f x s) (fun y hy => hf y (List.mem_cons_of_mem x hy)) (hf x List.mem_cons_self s h)

/-- What no element changes, the whole list does not change. -/
theorem forEach_same {α β : Type} (g : State → β) (f : α → State → State) (l : List α) (s : State)
    (h : ∀ x ∈ l, ∀ t, g (f x t) = g t) : g (forEach l f s) = g s :=
  forEach_keeps (fun t => g t = g s) f l s (fun x hx t ht => (h x hx t).trans ht) rfl

theorem forEach_nil {α : Type} (f : α → State → State) (s : State) : forEach [] f s = s := rfl

theorem forEach_cons {α : Type} (f : α → State → State) (x : α) (l : List α) (s : State) :
    forEach (x :: l) f s = forEach l f (f x s) := rfl

theorem forEach_append {α : Type} (f : α → State → State) (l m : List α) (s : State) :
    forEach (l ++ m) f s = forEach m f (forEach l f s) := List.foldl_append

/-- Every element stands in the order. -/
theorem mem_inOrder {n : Nat} (first : List (Fin n)) (x : Fin n) : x ∈ inOrder first := by
  induction first with
  | nil => exact List.mem_finRange x
  | cons y rest ih =>
    by_cases h : x = y
    · subst h; exact List.mem_cons_self
    · exact List.mem_cons_of_mem _ (List.mem_filter.mpr ⟨ih, by simpa using h⟩)

/-- No element stands twice in the order. -/
theorem inOrder_nodup {n : Nat} (first : List (Fin n)) : (inOrder first).Nodup := by
  induction first with
  | nil => exact List.nodup_finRange n
  | cons y rest ih => exact List.nodup_cons.mpr ⟨by simp, ih.filter _⟩

/-! ## Common memory -/

/-- A write changes the bytes it names and no other. -/
theorem write_memoryBut (s : State) (a : Nat) (bs : List Byte) :
    MemoryBut (fun x => a ≤ x ∧ x < a + bs.length) s (s.write a bs) := by
  intro x hx
  rw [State.write_mem, readByte_writeBytes, if_neg hx]

/-- A write inside the 64 KiB keeps the canonical form. -/
theorem write_keeps_memoryLaw (s : State) (a : Nat) (bs : List Byte) (h : MemoryLaw s)
    (hb : a + bs.length ≤ Config.memorySize) : MemoryLaw (s.write a bs) := wf_writeBytes s.mem a bs h hb

theorem MemoryBut.refl (w : Nat → Prop) (s : State) : MemoryBut w s s := fun _ _ => rfl

theorem MemoryBut.trans {w : Nat → Prop} {s t u : State} (h : MemoryBut w s t) (k : MemoryBut w t u) :
    MemoryBut w s u := fun a ha => (k a ha).trans (h a ha)

theorem MemoryBut.mono {w v : Nat → Prop} {s t : State} (h : MemoryBut w s t) (hw : ∀ a, w a → v a) :
    MemoryBut v s t := fun a ha => h a (fun k => ha (hw a k))

theorem MemoryBut.of_mem {w : Nat → Prop} {s t : State} (h : t.mem = s.mem) : MemoryBut w s t :=
  fun _ _ => by rw [h]

/-- A number outside the written bytes reads as before. -/
theorem MemoryBut.readNum {w : Nat → Prop} {s t : State} (h : MemoryBut w s t) (a n : Nat)
    (hw : ∀ i, i < n → ¬ w (a + i)) : readNum t.mem a n = readNum s.mem a n := by
  apply readNum_congr
  intro x h1 h2
  have := h x (by rw [show x = a + (x - a) by omega]; exact hw (x - a) (by omega))
  exact this

@[simp] theorem length_numBytes (n v : Nat) : (numBytes n v).length = n := by
  induction n generalizing v with
  | zero => rfl
  | succ n ih => simp [numBytes, ih]

/-! ## Deliveries and records -/

theorem sendRecord_eq (sender : Sender) (after : Option Stamp) (awaits : Bool) (r : Record) (s : State) :
    sendRecord sender after awaits r s = { s with journal := { s.journal with
      waiting := s.journal.waiting ++ [⟨s.journal.sent, sender, after, r, awaits⟩], sent := s.journal.sent + 1 } } := rfl

theorem sendRecord_sent (sender : Sender) (after : Option Stamp) (awaits : Bool) (r : Record) (s : State) :
    Sent s (sendRecord sender after awaits r s) sender after awaits r := rfl

@[simp] theorem sentRecords_nil (sender : Sender) (after : Option Stamp) (first : Nat) :
    sentRecords sender after first [] = [] := rfl

theorem sentRecords_cons (sender : Sender) (after : Option Stamp) (first : Nat) (r : Record) (rs : List Record) :
    sentRecords sender after first (r :: rs)
      = ⟨first, sender, after, r, false⟩ :: sentRecords sender after (first + 1) rs := rfl

/-- No records: the Journal Writer is as it was. -/
theorem sentAll_nil (s t : State) (sender : Sender) (after : Option Stamp) :
    SentAll s t sender after [] ↔ t.journal = s.journal := by simp [SentAll]

/-- One record sent at once, and then a run, is the run with that record in front. -/
theorem sentAll_cons {s t u : State} {sender : Sender} {after : Option Stamp} {r : Record} {rs : List Record}
    (h : Sent s t sender after false r) (k : SentAll t u sender after rs) : SentAll s u sender after (r :: rs) := by
  unfold Sent at h
  unfold SentAll at k ⊢
  rw [k, h]
  simp [sentRecords_cons]
  omega

/-- An event that sends no record, and then a run, is the run. -/
theorem sentAll_of_same {s t u : State} {sender : Sender} {after : Option Stamp} {rs : List Record}
    (h : t.journal = s.journal) (k : SentAll t u sender after rs) : SentAll s u sender after rs := by
  unfold SentAll at k ⊢
  rw [k, h]

/-- A change of one channel's deliveries leaves the other channels as they are. -/
theorem setLink_otherChannels (s : State) (c : Channel) (x : ChannelLinks) : OtherChannels c s (s.setLink c x) := by
  intro d h
  simp [h]

/-! ## The Arbiter -/

theorem joinTail_eq (c : Channel) (s : State) :
    joinTail c s = s.setArbiter { s.arbiter with
      high := tailIf (decide ((profileOf s c).group ≠ 1)) c s.arbiter.high
      low := tailIf (decide ((profileOf s c).group = 1)) c s.arbiter.low } := by
  unfold joinTail tailIf Profile.isLow
  by_cases h : (profileOf s c).group = 1 <;> simp [h]

theorem leaveQueue_eq (c : Channel) (s : State) :
    leaveQueue c s = s.setArbiter { s.arbiter with
      high := without c s.arbiter.high, low := without c s.arbiter.low } := rfl

theorem releaseEngine_eq (c : Channel) (s : State) :
    releaseEngine c s = s.setArbiter { s.arbiter with engine := releasedBy c s.arbiter.engine } := by
  unfold releaseEngine releasedBy
  by_cases h : s.arbiter.engine = .held c
  · simp [h]
  · simp [h, State.setArbiter]

theorem offerGrant_eq (s : State) :
    offerGrant s = s.setArbiter { s.arbiter with
      engine := grantFrom s.arbiter.engine s.arbiter.high s.arbiter.low } := by
  unfold offerGrant grantFrom
  cases he : s.arbiter.engine <;> cases hl : s.arbiter.high ++ s.arbiter.low <;> simp [← he, State.setArbiter]

/-- R104: when the preemption test of a report passes. -/
theorem preemptionDue_iff (c : Channel) (s : State) (p : Profile) (h : (s.chan c).profile = some p) :
    preemptionDue c s = true ↔ s.arbiter.engine = .held c ∧ p.group = 1 ∧ s.arbiter.preemptionSent = false
      ∧ s.evaluator.settings.preemptHold ≠ 0 ∧ s.evaluator.settings.preemptHold ≤ s.arbiter.steps
      ∧ s.arbiter.high ≠ [] := by
  simp [preemptionDue, holdsEngine, profileOf, Profile.isLow, h, and_assoc]

/-! ## The drive -/

theorem cut_eq (c : Channel) (s : State) :
    cut c s = s.setResolver c { s.resolver c with
      drive := if (s.chan c).mute = false then min (s.resolver c).drive (s.resolver c).resolved
        else (s.resolver c).drive } := by
  unfold cut
  by_cases hm : (s.chan c).mute = false
  · by_cases hd : (s.resolver c).resolved < (s.resolver c).drive
    · simp [hm, hd, Nat.min_eq_right (Nat.le_of_lt hd)]
    · have : min (s.resolver c).drive (s.resolver c).resolved = (s.resolver c).drive :=
        Nat.min_eq_left (Nat.le_of_not_lt hd)
      simp only [hm, hd, and_false, if_false, if_true, this]
      exact (State.setResolver_self s c).symm
  · simp only [hm]
    exact (State.setResolver_self s c).symm

/-! ## Strike Accounting -/

theorem profileOf_of_some {s : State} {c : Channel} {p : Profile} (h : (s.chan c).profile = some p) :
    profileOf s c = p := by
  simp [profileOf, h]

/-- R76: pruning leaves the recent strikes. -/
theorem prune_eq (c : Channel) (s : State) (p : Profile) (h : (s.chan c).profile = some p) :
    prune c s = s.setStrike c { s.strike c with times := recentStrikes s c p } := by
  simp [prune, profileOf_of_some h, pruneTimes, recentStrikes, age]

/-- R80, R88: a confirmation that is PENDING ends, and its record says so. -/
theorem endConfirmation_eq (c : Channel) (s : State) :
    endConfirmation c s = (s.setStrike c { s.strike c with
      pending := false, timer := if (s.strike c).pending = true then none else (s.strike c).timer }).setMem
        (endConfirmation c s).mem := by
  unfold endConfirmation
  by_cases h : (s.strike c).pending = true
  · simp only [h, if_true]; rfl
  · have hf : (s.strike c).pending = false := by simpa using h
    have hs : s.setStrike c { s.strike c with pending := false, timer := (s.strike c).timer } = s := by
      rw [show ({ s.strike c with pending := false, timer := (s.strike c).timer } : StrikeAccounting) = s.strike c by
        rw [← hf]]
      exact State.setStrike_self s c
    simp only [h, if_false, Bool.false_eq_true, hs]
    rfl

/-- R80: only the channel's confirmation record is written, and only when one was PENDING. -/
theorem endConfirmation_memoryBut (c : Channel) (s : State) :
    MemoryBut (fun a => (s.strike c).pending = true ∧ confirmationBytes c a) s (endConfirmation c s) := by
  unfold endConfirmation
  by_cases h : (s.strike c).pending = true
  · rw [if_pos h]
    intro a ha
    have hb : ¬ confirmationBytes c a := fun k => ha ⟨h, k⟩
    unfold confirmationBytes at hb
    rw [writeConfirmation, State.write_mem, readByte_writeBytes]
    rw [if_neg (by simpa using hb)]
    rfl
  · rw [if_neg h]; exact MemoryBut.refl _ _

/-- R80: the state word of the record reads NONE after a confirmation has ended. -/
theorem endConfirmation_state (c : Channel) (s : State) (h : (s.strike c).pending = true) :
    readNum (endConfirmation c s).mem (Config.confirmationBase + 16 * c.val) 2 = 0 := by
  unfold endConfirmation
  rw [if_pos h, writeConfirmation, State.write_mem]
  have := readNum_writeBytes_at s.mem (Config.confirmationBase + 16 * c.val) 2 0 []
    (numBytes 2 c.val ++ numBytes 2 (s.strike c).number.toNat ++ numBytes 2 (s.strike c).count
      ++ numBytes 4 (s.strike c).posted.toNat ++ numBytes 4 (s.strike c).deadline.toNat)
    (Config.confirmationBase + 16 * c.val)
  simpa [flag] using this

/-! ## Leaving a state -/

/-- R59, R69: what leaving the air and the queue changes. -/
theorem leaveAir_eq (c : Channel) (s : State) :
    leaveAir c s = ((s.setChan c { s.chan c with mute := true }).setResolver c
      { s.resolver c with drive := 0, ramp := none }).setArbiter { s.arbiter with
        high := without c s.arbiter.high, low := without c s.arbiter.low
        engine := releasedBy c s.arbiter.engine } := by
  rw [leaveAir, releaseEngine_eq, leaveQueue_eq]
  simp [dropRamp, silence, State.setArbiter, State.setResolver, State.setChan, State.resolver, State.chan]

/-- R63, R68, R69, R71: what a departure changes. -/
theorem depart_eq (c : Channel) (s : State) :
    depart c s = ((((s.setChan c { s.chan c with mute := true, holdoff := none, extended := false }).setResolver c
      { s.resolver c with drive := 0, ramp := none }).setArbiter { s.arbiter with
        high := without c s.arbiter.high, low := without c s.arbiter.low
        engine := releasedBy c s.arbiter.engine }).setStrike c { s.strike c with
          pending := false, timer := if (s.strike c).pending = true then none else (s.strike c).timer }).setMem
            (depart c s).mem := by
  unfold depart
  rw [endConfirmation_eq]
  simp [stopHoldoff, leaveAir_eq, State.setArbiter, State.setResolver, State.setChan, State.setStrike, State.setMem,
    State.resolver, State.chan, State.strike]
  congr

theorem depart_memoryBut (c : Channel) (s : State) :
    MemoryBut (fun a => (s.strike c).pending = true ∧ confirmationBytes c a) s (depart c s) := by
  have h := endConfirmation_memoryBut c (stopHoldoff c (leaveAir c s))
  simpa [depart, stopHoldoff, leaveAir_eq, MemoryBut] using h

theorem depart_state (c : Channel) (s : State) (h : (s.strike c).pending = true) :
    readNum (depart c s).mem (Config.confirmationBase + 16 * c.val) 2 = 0 :=
  endConfirmation_state c (stopHoldoff c (leaveAir c s)) (by simpa [stopHoldoff, leaveAir_eq] using h)

/-! ## Posting a confirmation, and the verdict -/

/-- R82: what posting a confirmation changes. -/
theorem postConfirmation_eq (c : Channel) (s : State) (p : Profile) (h : (s.chan c).profile = some p) :
    postConfirmation c s = (s.setStrike c
      { times := (s.strike c).times, pending := true, number := (s.strike c).nextNumber
        count := (s.strike c).times.length, posted := s.now
        deadline := s.now + BitVec.ofNat 32 (p.confirmTimeout * 1000)
        nextNumber := if (s.strike c).nextNumber = 65535 then 1 else (s.strike c).nextNumber + 1
        timer := some (s.now + BitVec.ofNat 32 (p.confirmTimeout * 1000)) }).setMem (postConfirmation c s).mem := by
  simp only [postConfirmation, profileOf_of_some h]
  rfl

theorem postConfirmation_memoryBut (c : Channel) (s : State) :
    MemoryBut (confirmationBytes c) s (postConfirmation c s) := by
  intro a ha
  unfold confirmationBytes at ha
  rw [postConfirmation, writeConfirmation, State.write_mem, readByte_writeBytes, if_neg (by simpa using ha)]
  rfl

/-- A number inside a written run, with what stands before it and behind it there. -/
theorem readNum_written (m : Memory) (a n v b : Nat) (bs front rest : List Byte)
    (h : bs = front ++ (numBytes n v ++ rest)) (hb : b = a + front.length) (hv : v < 256 ^ n) :
    readNum (writeBytes m a bs) b n = v := by
  rw [h, ← List.append_assoc, readNum_writeBytes_at _ _ _ _ _ _ _ hb]
  exact Nat.mod_eq_of_lt hv

/-- Section 11.4: the confirmation record in common memory after a posting. -/
theorem postConfirmation_record (c : Channel) (s : State) (p : Profile) (h : (s.chan c).profile = some p) :
    readNum (postConfirmation c s).mem (Config.confirmationBase + 16 * c.val) 2 = 1
    ∧ readNum (postConfirmation c s).mem (Config.confirmationBase + 16 * c.val + 4) 2 = (s.strike c).nextNumber.toNat
    ∧ readNum (postConfirmation c s).mem (Config.confirmationBase + 16 * c.val + 8) 4 = s.now.toNat
    ∧ readNum (postConfirmation c s).mem (Config.confirmationBase + 16 * c.val + 12) 4
        = (s.now + BitVec.ofNat 32 (p.confirmTimeout * 1000)).toNat := by
  simp only [postConfirmation, profileOf_of_some h, writeConfirmation, later, State.setStrike_strike_same, flag, if_true,
    State.write_mem, List.append_assoc]
  refine ⟨?_, ?_, ?_, ?_⟩
  · exact readNum_written _ _ _ _ _ _ [] _ rfl (by simp) (by decide)
  · exact readNum_written _ _ _ _ _ _ (numBytes 2 1 ++ numBytes 2 c.val) _ (by simp only [List.append_assoc]; rfl) (by simp)
      (s.strike c).nextNumber.isLt
  · exact readNum_written _ _ _ _ _ _
      (numBytes 2 1 ++ numBytes 2 c.val ++ numBytes 2 (s.strike c).nextNumber.toNat
        ++ numBytes 2 (s.strike c).times.length) _ (by simp only [List.append_assoc]; rfl) (by simp) s.now.isLt
  · exact readNum_written _ _ _ _ _ _
      (numBytes 2 1 ++ numBytes 2 c.val ++ numBytes 2 (s.strike c).nextNumber.toNat
        ++ numBytes 2 (s.strike c).times.length ++ numBytes 4 s.now.toNat) []
      (by simp only [List.append_assoc, List.append_nil]) (by simp) (BitVec.isLt _)

/-- R64, R70, R79: the verdict, and all that it changes. -/
theorem verdict_judged (c : Channel) (extended : Bool) (after : Option Stamp) (s : State) (p : Profile)
    (h : (s.chan c).profile = some p) : Judged s (verdict c extended after s) c p extended after := by
  have hp : ∀ x : State, (x.chan c).profile = some p → profileOf x c = p := fun x k => profileOf_of_some k
  have hr : (recentStrikes s c p) = (recentStrikes s c p) := rfl
  constructor
  · intro h1 h2
    have ha : mustAsk p (recentStrikes s c p).length = true := by simp [mustAsk, h1, h2]
    have hv : verdict c extended after s =
        (let t := postConfirmation c (setState c .confirmWait (prune c s))
         sendChannel c after { channelRecord c .confirmPosted t with extended := extended } t) := by
      unfold verdict
      rw [prune_eq c s p h]
      rw [if_pos (by rw [hp _ (by simpa using h)]; simpa using ha)]
    have hq : ((setState c .confirmWait (prune c s)).chan c).profile = some p := by simp [setState, prune, h]
    have hm := postConfirmation_memoryBut c (setState c .confirmWait (prune c s))
    have hw := postConfirmation_record c (setState c .confirmWait (prune c s)) p hq
    have ht : ((postConfirmation c (setState c .confirmWait (prune c s))).strike c).times = recentStrikes s c p := by
      rw [postConfirmation_eq c _ p hq, prune_eq c s p h]; simp [setState]
    have hm' : MemoryBut (confirmationBytes c) s (postConfirmation c (setState c .confirmWait (prune c s))) := hm
    have hn : ((setState c .confirmWait (prune c s)).strike c).nextNumber = (s.strike c).nextNumber := by
      rw [prune_eq c s p h]; simp [setState]
    rw [hn] at hw
    rw [hv]
    refine ⟨?_, ?_, ?_, hm', hw.1, hw.2.1, hw.2.2.1, hw.2.2.2, ?_⟩
    · rw [postConfirmation_eq c _ p hq]; simp [sendChannel, sendRecord, setState]
    · rw [postConfirmation_eq c _ p hq]; simp [sendChannel, sendRecord, setState, prune]
    · rw [postConfirmation_eq c _ p hq, prune_eq c s p h]; simp [sendChannel, sendRecord, setState]
    · simp only [Sent, sendChannel, sendRecord, channelRecord, ht]
      rw [postConfirmation_eq c _ p hq]
      simp [setState, prune]
  · intro h1
    have ha : mustAsk p (recentStrikes s c p).length = false := by
      rcases h1 with h1 | h1
      · simp [mustAsk, h1]
      · simp [mustAsk, h1]
    have hv : verdict c extended after s =
        (let t := joinTail c (setState c .queued (prune c s))
         offerGrant (sendChannel c after { channelRecord c .channelChanged t with extended := extended } t)) := by
      unfold verdict
      rw [prune_eq c s p h]
      rw [if_neg (by rw [hp _ (by simpa using h)]; simpa using ha)]
    have hq : ((setState c .queued (prune c s)).chan c).profile = some p := by simp [setState, prune, h]
    rw [hv]
    simp only [joinTail_eq, offerGrant_eq, hp _ hq]
    rw [prune_eq c s p h]
    refine ⟨?_, ?_, ?_, ?_, ?_⟩ <;> simp [sendChannel, sendRecord, setState, channelRecord, Sent]

/-- A verdict asks or queues. -/
theorem verdict_cases (c : Channel) (extended : Bool) (after : Option Stamp) (s : State) :
    (verdict c extended after s =
      let t := postConfirmation c (setState c .confirmWait (prune c s))
      sendChannel c after { channelRecord c .confirmPosted t with extended := extended } t)
    ∨ (verdict c extended after s =
      let t := joinTail c (setState c .queued (prune c s))
      offerGrant (sendChannel c after { channelRecord c .channelChanged t with extended := extended } t)) := by
  by_cases h : mustAsk (profileOf (prune c s) c) ((prune c s).strike c).times.length = true
  · left
    unfold verdict
    rw [if_pos h]
  · right
    unfold verdict
    rw [if_neg h]

/-- What a verdict leaves as it is. -/
theorem verdict_frame (c : Channel) (extended : Bool) (after : Option Stamp) (s : State) :
    verdict c extended after s =
      { s with mem := (verdict c extended after s).mem, chans := (verdict c extended after s).chans
               strikes := (verdict c extended after s).strikes, arbiter := (verdict c extended after s).arbiter
               journal := (verdict c extended after s).journal }
    ∧ OtherChannels c s (verdict c extended after s)
    ∧ (verdict c extended after s).chan c =
        { s.chan c with state := ((verdict c extended after s).chan c).state }
    ∧ (verdict c extended after s).resolver c = s.resolver c ∧ (verdict c extended after s).link c = s.link c := by
  rcases verdict_cases c extended after s with h | h <;> rw [h]
  · refine ⟨?_, ?_, ?_, ?_, ?_⟩
    · apply State.same <;>
        simp [sendChannel, sendRecord, postConfirmation, writeConfirmation, setState, prune]
    · intro d hd
      simp [sendChannel, sendRecord, postConfirmation, writeConfirmation, setState, prune, hd]
    all_goals simp [sendChannel, sendRecord, postConfirmation, writeConfirmation, setState, prune]
  · simp only [joinTail_eq, offerGrant_eq]
    refine ⟨?_, ?_, ?_, ?_, ?_⟩
    · apply State.same <;> simp [sendChannel, sendRecord, setState, prune]
    · intro d hd
      simp [sendChannel, sendRecord, setState, prune, hd]
    all_goals simp [sendChannel, sendRecord, setState, prune]

/-! ## Strikes -/

/-- R59, step 4: what the verdict on a live strike changes. -/
theorem strikeVerdict_eq (c : Channel) (s : State) :
    strikeVerdict c s = s.setChan c { s.chan c with
      state := if (s.strike c).times.length = (profileOf s c).lockoutThreshold then .lockout else .holdoff
      holdoff := if (s.strike c).times.length = (profileOf s c).lockoutThreshold then (s.chan c).holdoff
        else some (s.now + BitVec.ofNat 32 (profileOf s c).holdoffTime)
      extended := if (s.strike c).times.length = (profileOf s c).lockoutThreshold then (s.chan c).extended
        else false } := by
  unfold strikeVerdict
  by_cases h : (s.strike c).times.length = (profileOf s c).lockoutThreshold <;> simp [h, setState, later]

/-- R59: what a live strike changes. -/
theorem liveStrike_eq (c : Channel) (cause : Cause) (after : Option Stamp) (s : State) (p : Profile)
    (h : (s.chan c).profile = some p) :
    liveStrike c cause after s =
      let locked := decide ((recentStrikes s c p).length + 1 = p.lockoutThreshold)
      let st : ChannelState := if locked = true then .lockout else .holdoff
      let r : Record := withCause cause
        { time := s.now, kind := .strike, channel := some c, newState := .channel st
          strikeCount := (recentStrikes s c p).length + 1 }
      { s with
        chans := put s.chans c { s.chan c with
          state := st, mute := true
          holdoff := if locked = true then (s.chan c).holdoff else some (s.now + BitVec.ofNat 32 p.holdoffTime)
          extended := if locked = true then (s.chan c).extended else false }
        strikes := put s.strikes c { s.strike c with times := recentStrikes s c p ++ [s.now] }
        resolvers := put s.resolvers c { s.resolver c with drive := 0, ramp := none }
        arbiter := { s.arbiter with
          high := without c s.arbiter.high, low := without c s.arbiter.low
          engine := grantFrom (releasedBy c s.arbiter.engine) (without c s.arbiter.high) (without c s.arbiter.low) }
        journal := { s.journal with
          waiting := s.journal.waiting ++ [⟨s.journal.sent, .channel c, after, r, cause.triggers⟩]
          sent := s.journal.sent + 1 } } := by
  have hp' : ((leaveAir c s).chan c).profile = some p := by simp [leaveAir_eq, h]
  have hr : recentStrikes (leaveAir c s) c p = recentStrikes s c p := by simp [recentStrikes, leaveAir_eq]
  unfold liveStrike
  rw [prune_eq c _ p hp', hr]
  have hq : ∀ x : State, x.chans = (leaveAir c s).chans → profileOf x c = p := fun x k =>
    profileOf_of_some (by rw [State.chan, k]; exact hp')
  simp only [strikeVerdict_eq, offerGrant_eq]
  rw [hq _ (by simp [appendStrike])]
  by_cases hk : (recentStrikes s c p).length + 1 = p.lockoutThreshold <;> apply State.same <;>
    simp [sendRecord, appendStrike, leaveAir_eq, channelRecord, hk]

/-- STRIKE takes the strike that is next on the link. -/
theorem execStrike_next (s : State) (c : Channel) (link : StrikeLink) (cause : Cause) (after : Option Stamp)
    (left : ChannelLinks) (h : nextStrike s c link = some (cause, after, left)) :
    execStrike c link s = .next (takeStrike c cause after (s.setLink c left)) := by
  unfold nextStrike at h
  cases link
  · simp only at h
    split at h
    · rename_i hl
      simp only [Option.some.injEq, Prod.mk.injEq] at h
      obtain ⟨rfl, rfl, rfl⟩ := h
      simp [execStrike, hl]
    · simp at h
  · simp only at h
    split at h
    · rename_i hl
      simp only [Option.some.injEq, Prod.mk.injEq] at h
      obtain ⟨rfl, rfl, rfl⟩ := h
      simp [execStrike, hl]
    · simp at h
  · simp only at h
    split at h
    · rename_i hl
      simp only [Option.some.injEq, Prod.mk.injEq] at h
      obtain ⟨rfl, rfl, rfl⟩ := h
      simp [execStrike, hl]
    · simp at h

/-! ## Timers -/

theorem reached_of_lt {now finish : Time} (h : (now - finish).toNat < 2147483648) : reached now finish = true :=
  decide_eq_true h

theorem not_reached_of_le {now finish : Time} (h : 2147483648 ≤ (now - finish).toNat) :
    reached now finish = false := decide_eq_false (Nat.not_lt.mpr h)

/-! ## Entries of the limit set -/

/-- R112, R114, R115: what a change of an entry other than RAMP changes. -/
theorem changeEntry_eq (c : Channel) (r : DriveResolver) (s : State) (h : r ≠ s.resolver c) :
    changeEntry c r s = completionTest c (s.setResolver c { r with
      drive := if (s.chan c).mute = false then min r.drive r.resolved else r.drive }) := by
  unfold changeEntry
  rw [if_neg h, cut_eq]
  congr 1
  simp [State.setResolver, State.resolver, State.chan]
  congr

theorem changeEntry_same (c : Channel) (s : State) : changeEntry c (s.resolver c) s = s := by simp [changeEntry]

/-- R102: what a completion test changes. -/
theorem completionTest_eq (c : Channel) (s : State) :
    completionTest c s = s.setLink c { s.link c with completions := (s.link c).completions +
      (if s.arbiter.engine = .held c ∧ (s.resolver c).rampComplete = true then 1 else 0) } := by
  unfold completionTest completionFound holdsEngine tellCompletion
  by_cases h : s.arbiter.engine = .held c ∧ (s.resolver c).rampComplete = true
  · rw [if_pos (by simpa using h), if_pos h]
  · rw [if_neg (by simpa using h), if_neg h]
    exact (State.setLink_self s c).symm

/-! ## Positions -/

theorem moveTo_eq (p : PositionIx) (st : PositionState) (s : State) :
    moveTo p st s = s.setPosition p { s.position p with state := st, bias := st == .active } := rfl

/-- A change of one position leaves the other positions as they are. -/
theorem moveTo_other (p q : PositionIx) (st : PositionState) (s : State) (h : q ≠ p) :
    (moveTo p st s).position q = s.position q := by
  simp [moveTo_eq, h]

/-- R130: a move and its count change the positions and the channel's counts, and nothing else. -/
theorem moveCounted_frame (p : PositionIx) (st : PositionState) (s : State) :
    moveCounted p st s = { s with positions := (moveTo p st s).positions, links := (moveCounted p st s).links } := by
  unfold moveCounted
  by_cases h : activeCount (moveTo p st s) (channelOf p) = activeCount s (channelOf p)
  · simp only [h, if_true]; rfl
  · simp only [h, if_false]; rfl

/-- R137: the re-checked state is the table's. -/
theorem recheckedState_spec (st : PositionState) (ok installed : Bool) :
    Rechecked st (recheckedState st ok installed) ok installed := by
  cases st <;> cases ok <;> cases installed <;> constructor <;> simp [recheckedState]

/-! ## Requests -/

/-- R152, R155: a completed slot holds its result and DONE, and the sweep has moved on. -/
theorem completeSlot_frame (k : SlotIx) (r : Reply) (s : State) :
    completeSlot k r s = { s with mem := (completeSlot k r s).mem, handler := (completeSlot k r s).handler } := by
  unfold completeSlot moveOn writeSlotState
  cases h : s.handler.sweep <;> simp [h] <;> rfl

theorem completeSlot_handler (k : SlotIx) (r : Reply) (s : State) (n : Nat) (h : s.handler.sweep = some ⟨k.val, n⟩) :
    (completeSlot k r s).handler = { s.handler with sweep := some ⟨k.val + 1, n + 1⟩ } := by
  simp [completeSlot, moveOn, writeSlotState, h]

theorem completeSlot_mem (k : SlotIx) (r : Reply) (s : State) :
    (completeSlot k r s).mem = writeBytes (writeBytes s.mem (slotAddress k + 0x0C)
      (numBytes 2 r.code.code ++ numBytes 2 r.detail1 ++ numBytes 2 r.detail2)) (slotAddress k) (numBytes 2 3) := by
  unfold completeSlot moveOn writeSlotState
  cases h : s.handler.sweep <;> simp [h]

theorem ResultCode.code_lt (c : ResultCode) : c.code < 65536 := by cases c <;> decide

/-- R152: what a completed slot's words read. -/
theorem completeSlot_words (k : SlotIx) (r : Reply) (s : State) (h1 : r.detail1 < 65536) (h2 : r.detail2 < 65536) :
    slotWord (completeSlot k r s).mem k 0x00 = 3 ∧ slotWord (completeSlot k r s).mem k 0x0C = r.code.code
    ∧ slotWord (completeSlot k r s).mem k 0x0E = r.detail1 ∧ slotWord (completeSlot k r s).mem k 0x10 = r.detail2 := by
  unfold slotWord
  rw [completeSlot_mem]
  refine ⟨?_, ?_, ?_, ?_⟩
  · exact readNum_written _ _ 2 3 _ _ [] [] (by simp) (by simp) (by decide)
  · rw [readNum_writeBytes_disjoint _ _ _ _ _ (by simp)]
    exact readNum_written _ _ 2 _ _ _ [] (numBytes 2 r.detail1 ++ numBytes 2 r.detail2) (by simp) (by simp)
      (ResultCode.code_lt _)
  · rw [readNum_writeBytes_disjoint _ _ _ _ _ (by simp)]
    exact readNum_written _ _ 2 _ _ _ (numBytes 2 r.code.code) (numBytes 2 r.detail2) (by simp) (by simp) h1
  · rw [readNum_writeBytes_disjoint _ _ _ _ _ (by simp)]
    exact readNum_written _ _ 2 _ _ _ (numBytes 2 r.code.code ++ numBytes 2 r.detail1) [] (by simp) (by simp) h2

/-- R152: a completed slot's write changes the words the card writes there, and no other byte. -/
theorem completeSlot_memoryBut (k : SlotIx) (r : Reply) (s : State) : MemoryBut (slotBytes k) s (completeSlot k r s) := by
  intro a ha
  unfold slotBytes at ha
  rw [completeSlot_mem, readByte_writeBytes, if_neg (by simp; omega), readByte_writeBytes, if_neg (by simp; omega)]

/-- R152, R153: a served request is answered with its work's reply, from the state in which its slot is TAKEN. -/
theorem serve_answered (k : SlotIx) (work : Arguments → State → State × Reply) (s : State) (n : Nat)
    (hs : s.handler.sweep = some ⟨k.val, n⟩)
    (hw : (work (argumentsOf s.mem k) (writeSlotState k 2 s)).1.handler = s.handler)
    (h1 : (work (argumentsOf s.mem k) (writeSlotState k 2 s)).2.detail1 < 65536)
    (h2 : (work (argumentsOf s.mem k) (writeSlotState k 2 s)).2.detail2 < 65536) :
    Answered s (serve k work s) k n (work (argumentsOf s.mem k) (writeSlotState k 2 s)).2 := by
  obtain ⟨a, b, c, d⟩ := completeSlot_words k (work (argumentsOf s.mem k) (writeSlotState k 2 s)).2
    (work (argumentsOf s.mem k) (writeSlotState k 2 s)).1 h1 h2
  refine ⟨a, b, c, d, ?_⟩
  show (completeSlot k _ _).handler = _
  rw [completeSlot_handler k _ _ n (by rw [hw]; exact hs), hw]

/-- R155: the visit that takes an offered request. -/
theorem offered_of {s : State} {k : SlotIx} {n kind w1 w2 w3 : Nat} (h : Offered s k n kind w1 w2 w3) :
    offered (kindOf kind) s = some k := by
  have hv : visiting s = some k := by
    simp [visiting, h.sweeping, h.unloaded, index, k.isLt]
  simp [offered, hv, posted, h.posted, slotKind, h.kind]

/-! ## Captures and the journal -/

/-- R149: what writing a header changes. -/
theorem changeBuffer_eq (b : BufferIx) (x : CaptureBuffer) (s : State) :
    changeBuffer b x s = (s.setBuffer b x).setMem (changeBuffer b x s).mem := rfl

theorem changeBuffer_memoryBut (b : BufferIx) (x : CaptureBuffer) (s : State) :
    MemoryBut (headerBytes b) s (changeBuffer b x s) := by
  intro a ha
  unfold headerBytes at ha
  rw [changeBuffer, writeCaptureHeader, State.write_mem, readByte_writeBytes, if_neg (by simp; omega)]
  rfl

/-- R164, step 1: a sequence number is never 0. -/
theorem nextSequence_ne_zero (q : Seq) : nextSequence q ≠ 0 := by
  unfold nextSequence
  split
  · decide
  · rename_i h
    intro k
    apply h
    have : q = 0 - 1 := by rw [← k]; simp
    rw [this]; decide

/-- R145: finishing a fill changes no more than one buffer and its header. -/
theorem finishFill_frame (s : State) :
    finishFill s = { s with mem := (finishFill s).mem, captures := (finishFill s).captures }
    ∧ (finishFill s).captures.postCounts = s.captures.postCounts := by
  unfold finishFill
  split
  · exact ⟨rfl, rfl⟩
  · split
    · exact ⟨rfl, rfl⟩
    · exact ⟨rfl, rfl⟩

/-- R164: what numbering a record changes. -/
theorem numberRecord_frame (r : Record) (s : State) :
    numberRecord r s = { s with mem := (numberRecord r s).mem, captures := (numberRecord r s).captures
                                journal := { s.journal with
                                  newest := nextSequence s.journal.newest, next := s.journal.next + 1 } } := by
  unfold numberRecord
  cases startedBuffer r with
  | none => rfl
  | some b =>
    simp only [writeTriggerSequence]
    rw [(finishFill_frame _).1]
    rfl

/-- R164, step 5. -/
theorem startedBuffer_isSome (r : Record) : (startedBuffer r).isSome = true ↔ StartsCapture r := by
  unfold startedBuffer StartsCapture
  split
  · rename_i h; exact ⟨fun k => ⟨h.1, h.2, k⟩, fun k => k.2.2⟩
  · rename_i h; exact ⟨fun k => absurd k (by simp), fun k => absurd ⟨k.1, k.2.1⟩ h⟩

/-- R145: finishing a fill writes no more than one header. -/
theorem finishFill_memoryBut (s : State) : MemoryBut (fun a => ∃ b, headerBytes b a) s (finishFill s) := by
  unfold finishFill
  split
  · exact MemoryBut.refl _ _
  · rename_i b _
    split
    · exact (changeBuffer_memoryBut b _ s).mono (fun _ h => ⟨b, h⟩)
    · exact MemoryBut.refl _ _

/-- R143, R145: writing a trigger sequence writes headers of captures only. -/
theorem writeTriggerSequence_memoryBut (b : BufferIx) (q : Seq) (s : State) :
    MemoryBut (fun a => ∃ b, headerBytes b a) s (writeTriggerSequence b q s) :=
  ((changeBuffer_memoryBut b _ s).mono (fun _ h => ⟨b, h⟩)).trans (finishFill_memoryBut _)

theorem length_recordBytes (q : Seq) (r : Record) : (recordBytes q r).length = 32 := by simp [recordBytes]

/-- R164: the state of the Journal Writer and of memory before a starting record's number is handed on. -/
theorem numberRecord_written (r : Record) (s : State) :
    MemoryBut (fun a => StartsCapture r ∧ ∃ b, headerBytes b a)
      (writeJournalHeader ((s.write (Config.journalBase + 32 * s.journal.next.val)
        (recordBytes (nextSequence s.journal.newest) r)).setJournal { s.journal with
          newest := nextSequence s.journal.newest, next := s.journal.next + 1 })) (numberRecord r s) := by
  have h := startedBuffer_isSome r
  unfold numberRecord
  cases hb : startedBuffer r with
  | none => exact MemoryBut.refl _ _
  | some b =>
    rw [hb] at h
    exact (writeTriggerSequence_memoryBut b _ _).mono (fun _ k => ⟨h.mp rfl, k⟩)

/-- R164: what numbering a record writes. -/
theorem numberRecord_memoryBut (r : Record) (s : State) :
    MemoryBut (fun a => journalHeaderBytes a ∨ journalSlotBytes s.journal.next a
      ∨ (StartsCapture r ∧ ∃ b, headerBytes b a)) s (numberRecord r s) := by
  intro a ha
  rw [numberRecord_written r s a (fun k => ha (Or.inr (Or.inr k)))]
  have h1 : ¬ journalHeaderBytes a := fun k => ha (Or.inl k)
  have h2 : ¬ journalSlotBytes s.journal.next a := fun k => ha (Or.inr (Or.inl k))
  unfold journalHeaderBytes at h1
  unfold journalSlotBytes at h2
  simp only [writeJournalHeader, State.write_mem, State.setJournal_mem]
  rw [readByte_writeBytes, if_neg (by simp; omega), readByte_writeBytes,
    if_neg (by rw [length_recordBytes]; omega)]

/-- R164, step 4: the header after a record. -/
theorem numberRecord_header (r : Record) (s : State) :
    readNum (numberRecord r s).mem Config.journalHeaderBase 4 = (nextSequence s.journal.newest).toNat
    ∧ readNum (numberRecord r s).mem (Config.journalHeaderBase + 4) 2 = (s.journal.next + 1).val := by
  have keep : ∀ i n, i + n ≤ 32 → readNum (numberRecord r s).mem (Config.journalHeaderBase + i) n =
      readNum (writeJournalHeader ((s.write (Config.journalBase + 32 * s.journal.next.val)
        (recordBytes (nextSequence s.journal.newest) r)).setJournal { s.journal with
          newest := nextSequence s.journal.newest, next := s.journal.next + 1 })).mem
        (Config.journalHeaderBase + i) n := fun i n hi =>
    (numberRecord_written r s).readNum _ _ (fun j hj k => by
      obtain ⟨_, b, hb⟩ := k
      unfold headerBytes at hb
      simp only [Config.journalHeaderBase, Config.captureHeaderBase] at hb
      omega)
  rw [← Nat.add_zero Config.journalHeaderBase, keep 0 4 (by omega), Nat.add_zero, keep 4 2 (by omega)]
  simp only [writeJournalHeader, State.write_mem]
  refine ⟨?_, ?_⟩
  · exact readNum_written _ _ _ _ _ _ [] _ rfl (by simp) (BitVec.isLt _)
  · exact readNum_written _ _ _ _ _ _ (numBytes 4 (nextSequence s.journal.newest).toNat) _
      (by simp only [List.append_assoc]; rfl) (by simp) (Nat.lt_trans (s.journal.next + 1).isLt (by decide))

/-- A record stands where its bytes stand. -/
theorem RecordAt.congr {m m' : Memory} {n : Fin 64} {q : Seq} {r : Record} (h : RecordAt m n q r)
    (hm : ∀ a, journalSlotBytes n a → readByte m' a = readByte m a) : RecordAt m' n q r := by
  have keep : ∀ i k, i + k ≤ 32 → readNum m' (Config.journalBase + 32 * n.val + i) k
      = readNum m (Config.journalBase + 32 * n.val + i) k := fun i k hi =>
    readNum_congr _ _ _ _ (fun x h1 h2 => hm x ⟨by omega, by omega⟩)
  have keep0 : readNum m' (Config.journalBase + 32 * n.val) 4 = readNum m (Config.journalBase + 32 * n.val) 4 :=
    keep 0 4 (by omega)
  constructor
  · rw [keep0]; exact h.sequence
  · rw [keep _ _ (by omega)]; exact h.time
  · rw [keep _ _ (by omega)]; exact h.kind
  · rw [keep _ _ (by omega)]; exact h.channel
  · rw [keep _ _ (by omega)]; exact h.position
  · rw [keep _ _ (by omega)]; exact h.condition
  · rw [keep _ _ (by omega)]; exact h.line
  · rw [keep _ _ (by omega)]; exact h.newState
  · intro k; rw [keep _ _ (by omega)]; exact h.strikeCount k
  · rw [keep _ _ (by omega)]; exact h.buffer
  · intro k; rw [keep _ _ (by omega)]; exact h.value k
  · rw [keep _ _ (by omega)]; exact h.marks

theorem byteOrNone_lt {n : Nat} (h : n ≤ 255) (x : Option (Fin n)) : byteOrNone x < 256 := by
  cases x with
  | none => exact (by decide : (0xFF : Nat) < 256)
  | some i => exact Nat.lt_of_lt_of_le i.isLt (by omega)

theorem NewState.code_lt (x : NewState) : x.code < 256 := by
  cases x with
  | none => decide
  | channel st => cases st <;> decide
  | position st => cases st <;> decide

/-- Section 11.4: the fields of a record with their widths, in order. -/
def recordFields (q : Seq) (r : Record) : List (Nat × Nat) :=
  [(4, q.toNat), (4, r.time.toNat), (1, r.kind.code), (1, byteOrNone r.channel), (1, byteOrNone r.position),
    (1, byteOrNone r.condition), (1, (r.line.map (fun l => l.val + 1)).getD 0xFF), (1, r.newState.code),
    (1, r.strikeCount), (1, byteOrNone r.buffer), (4, r.value.getD 0xFFFFFFFF),
    (1, flag r.joined + 2 * flag r.replaced + 4 * flag r.withdrawn + 8 * flag r.extended), (11, 0)]

/-- Fields written one after another are each read at their place. -/
theorem readNum_fields (m : Memory) (a : Nat) (l : List (Nat × Nat)) (i : Nat) (h : i < l.length) (b : Nat)
    (hb : b = a + ((l.take i).map (fun f => f.1)).sum) (hv : l[i].2 < 256 ^ l[i].1) :
    readNum (writeBytes m a (l.flatMap (fun f => numBytes f.1 f.2))) b l[i].1 = l[i].2 := by
  have e : l = l.take i ++ l[i] :: l.drop (i + 1) := by
    rw [List.getElem_cons_drop, List.take_append_drop]
  have hl : ∀ k : List (Nat × Nat), (k.flatMap (fun f => numBytes f.1 f.2)).length = (k.map (fun f => f.1)).sum := by
    intro k
    induction k with
    | nil => rfl
    | cons x k ih => simp [ih]
  refine readNum_written _ _ _ _ _ _ ((l.take i).flatMap (fun f => numBytes f.1 f.2))
    ((l.drop (i + 1)).flatMap (fun f => numBytes f.1 f.2)) ?_ (by rw [hl]; exact hb) hv
  rw [← List.flatMap_cons (f := fun f : Nat × Nat => numBytes f.1 f.2), ← List.flatMap_append, ← e]

/-- Section 11.4: a record's bytes, written to its slot, hold the record. -/
theorem recordAt_written (m : Memory) (n : Fin 64) (q : Seq) (r : Record) :
    RecordAt (writeBytes m (Config.journalBase + 32 * n.val) (recordBytes q r)) n q r := by
  have e : recordBytes q r = (recordFields q r).flatMap (fun f => numBytes f.1 f.2) := by
    cases h : r.line <;> simp [recordBytes, recordFields, List.flatMap, h]
  have hl : (recordFields q r).length = 13 := rfl
  rw [e]
  constructor
  · exact readNum_fields m _ (recordFields q r) 0 (by rw [hl]; decide) _ rfl q.isLt
  · exact readNum_fields m _ (recordFields q r) 1 (by rw [hl]; decide) _ rfl r.time.isLt
  · exact readNum_fields m _ (recordFields q r) 2 (by rw [hl]; decide) _ rfl (by cases h : r.kind <;> simp [recordFields, h, RecordKind.code])
  · exact readNum_fields m _ (recordFields q r) 3 (by rw [hl]; decide) _ rfl (byteOrNone_lt (by decide) r.channel)
  · exact readNum_fields m _ (recordFields q r) 4 (by rw [hl]; decide) _ rfl (byteOrNone_lt (by decide) r.position)
  · exact readNum_fields m _ (recordFields q r) 5 (by rw [hl]; decide) _ rfl (byteOrNone_lt (by decide) r.condition)
  · exact readNum_fields m _ (recordFields q r) 6 (by rw [hl]; decide) _ rfl (by
      cases h : r.line <;> simp [recordFields, h]; omega)
  · exact readNum_fields m _ (recordFields q r) 7 (by rw [hl]; decide) _ rfl (NewState.code_lt r.newState)
  · exact fun h => readNum_fields m _ (recordFields q r) 8 (by rw [hl]; decide) _ rfl h
  · exact readNum_fields m _ (recordFields q r) 9 (by rw [hl]; decide) _ rfl (byteOrNone_lt (by decide) r.buffer)
  · exact fun h => readNum_fields m _ (recordFields q r) 10 (by rw [hl]; decide) _ rfl h
  · exact readNum_fields m _ (recordFields q r) 11 (by rw [hl]; decide) _ rfl (by
      cases h1 : r.joined <;> cases h2 : r.replaced <;> cases h3 : r.withdrawn <;> cases h4 : r.extended <;>
        simp [recordFields, h1, h2, h3, h4, flag])

/-- R164, steps 1 and 2: the record stands in its slot under its number. -/
theorem numberRecord_recordAt (r : Record) (s : State) :
    RecordAt (numberRecord r s).mem s.journal.next (nextSequence s.journal.newest) r := by
  refine (recordAt_written s.mem s.journal.next (nextSequence s.journal.newest) r).congr (fun a ha => ?_)
  unfold journalSlotBytes at ha
  have hn := s.journal.next.isLt
  simp only [Config.journalBase] at ha
  rw [numberRecord_written r s a (fun k => by
    obtain ⟨_, b, hb⟩ := k
    unfold headerBytes at hb
    simp only [Config.captureHeaderBase] at hb
    omega)]
  simp only [writeJournalHeader, State.write_mem, State.setJournal_mem]
  rw [readByte_writeBytes, if_neg (by simp [Config.journalHeaderBase]; omega)]

/-- R164, step 1. -/
theorem nextSequence_eq (q : Seq) : nextSequence q = followingNumber q := rfl

theorem slotsOn_zero (n : Fin 64) : slotsOn n 0 = n := Fin.ext (Nat.mod_eq_of_lt n.isLt)

theorem slotsOn_succ (n : Fin 64) (k : Nat) : slotsOn n (k + 1) = slotsOn n k + 1 := by
  apply Fin.ext
  simp [slotsOn, Fin.val_add]
  omega

/-- Within 64 places no slot comes twice. -/
theorem slotsOn_ne (n : Fin 64) (k m : Nat) (h : k < m) (hm : m < k + 64) : slotsOn n k ≠ slotsOn n m := fun e => by
  have := congrArg Fin.val e
  simp only [slotsOn] at this
  omega

/-- R164: a run of records is numbered from the newest number on, in order; the last 64 of them stand in consecutive
slots, the header names the last, and nothing else changes but the headers of captures that they start. -/
theorem numberRecords_spec (l : List WaitingRecord) (s : State) :
    (forEach l (fun w t => numberRecord w.record t) s) =
      { s with
        mem := (forEach l (fun w t => numberRecord w.record t) s).mem
        captures := (forEach l (fun w t => numberRecord w.record t) s).captures
        journal := { s.journal with
          newest := numberAfterRecords s.journal.newest l.length, next := slotsOn s.journal.next l.length } }
    ∧ (∀ k w, l[k]? = some w → l.length ≤ k + 64 →
        RecordAt (forEach l (fun w t => numberRecord w.record t) s).mem (slotsOn s.journal.next k)
          (numberAfterRecords s.journal.newest (k + 1)) w.record)
    ∧ (l ≠ [] →
        readNum (forEach l (fun w t => numberRecord w.record t) s).mem Config.journalHeaderBase 4
            = (numberAfterRecords s.journal.newest l.length).toNat
        ∧ readNum (forEach l (fun w t => numberRecord w.record t) s).mem (Config.journalHeaderBase + 4) 2
            = (slotsOn s.journal.next l.length).val)
    ∧ MemoryBut (fun a => (∃ k, k < l.length ∧ (journalHeaderBytes a ∨ journalSlotBytes (slotsOn s.journal.next k) a))
        ∨ ((∃ w, w ∈ l ∧ StartsCapture w.record) ∧ ∃ b, headerBytes b a)) s
        (forEach l (fun w t => numberRecord w.record t) s) := by
  induction l using List.reverseRecOn with
  | nil =>
    refine ⟨?_, fun k w h => by simp at h, fun h => absurd rfl h, MemoryBut.refl _ _⟩
    simp only [forEach_nil, List.length_nil, slotsOn_zero, numberAfterRecords]
  | append_singleton l w ih =>
    obtain ⟨h1, h2, _, h4⟩ := ih
    rw [forEach_append, forEach_cons, forEach_nil]
    have hn : (forEach l (fun w t => numberRecord w.record t) s).journal.newest
        = numberAfterRecords s.journal.newest l.length := by rw [h1]
    have hs : (forEach l (fun w t => numberRecord w.record t) s).journal.next = slotsOn s.journal.next l.length := by
      rw [h1]
    have hh := numberRecord_header w.record (forEach l (fun w t => numberRecord w.record t) s)
    have hm := numberRecord_memoryBut w.record (forEach l (fun w t => numberRecord w.record t) s)
    have hr := numberRecord_recordAt w.record (forEach l (fun w t => numberRecord w.record t) s)
    rw [hn, hs] at hh
    rw [hs] at hm
    rw [hn, hs] at hr
    refine ⟨?_, ?_, ?_, ?_⟩
    · have hf := numberRecord_frame w.record (forEach l (fun w t => numberRecord w.record t) s)
      rw [hn, hs] at hf
      rw [List.length_append, List.length_singleton, slotsOn_succ]
      revert hf
      generalize numberRecord w.record (forEach l (fun w t => numberRecord w.record t) s) = u
      intro hf
      rw [h1] at hf
      exact hf
    · intro k v hv hk
      rw [List.length_append, List.length_singleton] at hk
      rcases Nat.lt_trichotomy k l.length with hlt | rfl | hgt
      · rw [List.getElem?_append_left hlt] at hv
        refine (h2 k v hv (by omega)).congr (fun a ha => hm a (fun hw => ?_))
        have hne := slotsOn_ne s.journal.next k l.length hlt (by omega)
        have hne' : (slotsOn s.journal.next k).val ≠ (slotsOn s.journal.next l.length).val := fun e => hne (Fin.ext e)
        have hlt1 := (slotsOn s.journal.next k).isLt
        unfold journalHeaderBytes at hw
        unfold journalSlotBytes at hw ha
        simp only [Config.journalBase, Config.journalHeaderBase] at hw ha
        rcases hw with hw | hw | ⟨_, b, hb⟩
        · omega
        · omega
        · unfold headerBytes at hb
          simp only [Config.captureHeaderBase] at hb
          omega
      · simp only [List.getElem?_concat_length, Option.some.injEq] at hv
        subst hv
        exact hr
      · rw [List.getElem?_eq_none (by simp; omega)] at hv
        cases hv
    · intro _
      rw [List.length_append, List.length_singleton, slotsOn_succ]
      exact hh
    · refine (h4.mono (fun a ha => ?_)).trans (hm.mono (fun a ha => ?_))
      · rcases ha with ⟨k, hk, ha⟩ | ⟨⟨v, hv, hc⟩, hb⟩
        · exact Or.inl ⟨k, by rw [List.length_append, List.length_singleton]; omega, ha⟩
        · exact Or.inr ⟨⟨v, List.mem_append_left _ hv, hc⟩, hb⟩
      · rcases ha with ha | ha | ⟨hc, hb⟩
        · exact Or.inl ⟨l.length, by simp, Or.inl ha⟩
        · exact Or.inl ⟨l.length, by simp, Or.inr ha⟩
        · exact Or.inr ⟨⟨w, by simp, hc⟩, hb⟩

/-! ## Checks of drafts (R41, R42, R51) -/

/-- The first failure of a list of checks, numbered from one after `start`, is the first field that breaks its check,
where each check says so of its field once the fields before it have passed. -/
theorem firstFailure_spec (passes : Nat → Prop) : ∀ (l : List (Nat × Bool)) (start : Nat),
    l.map (fun x => x.1) = List.range' (start + 1) l.length → (∀ m, 1 ≤ m → m ≤ start → passes m) →
    (∀ x ∈ l, (∀ m, 1 ≤ m → m < x.1 → passes m) → (x.2 = true ↔ passes x.1)) →
    FirstFailing passes (start + l.length) (firstFailure l) := by
  intro l
  induction l with
  | nil => intro start _ hp _ n h1 h2; exact hp n h1 h2
  | cons x l ih =>
    intro start hl hp hx
    obtain ⟨n, good⟩ := x
    simp only [List.map_cons, List.length_cons, List.range'_succ, List.cons.injEq] at hl
    obtain ⟨hn, hl⟩ := hl
    subst hn
    have h := hx _ List.mem_cons_self (fun m h1 h2 => hp m h1 (by omega))
    cases good with
    | false =>
      exact ⟨by omega, by simp, fun k => absurd (h.mpr k) (by simp), fun m h1 h2 => hp m h1 (by omega)⟩
    | true =>
      have := ih (start + 1) hl (fun m h1 h2 => by
        by_cases e : m = start + 1
        · rw [e]; exact h.mp rfl
        · exact hp m h1 (by omega)) (fun y hy => hx y (List.mem_cons_of_mem _ hy))
      have e : start + ((start + 1, true) :: l).length = start + 1 + l.length := by simp; omega
      rw [e]
      exact this

/-- R42. -/
theorem checkSettings_spec (st : SiteSettings) : FirstFailing (SettingsFieldPasses st) 5 (checkSettings st) := by
  refine firstFailure_spec (SettingsFieldPasses st) _ 1 rfl (fun m h1 h2 => ?_) (fun x hx _ => ?_)
  · have : m = 1 := by omega
    subst this; trivial
  · simp only [List.mem_cons, List.not_mem_nil, or_false] at hx
    rcases hx with rfl | rfl | rfl | rfl <;> simp [SettingsFieldPasses]
    exact forall_congr' fun l => by omega

/-- R51. -/
theorem checkProfile_spec (p : Profile) : FirstFailing (ProfileFieldPasses p) 22 (checkProfile p) := by
  refine firstFailure_spec (ProfileFieldPasses p) _ 0 rfl (fun m h1 h2 => by omega) (fun x hx _ => ?_)
  have e : List.finRange 6 = [0, 1, 2, 3, 4, 5] := by decide
  simp only [e, List.map_cons, List.map_nil, List.cons_append, List.nil_append, List.mem_cons, List.not_mem_nil,
    or_false] at hx
  rcases hx with rfl | rfl | rfl | rfl | rfl | rfl | rfl | rfl | rfl | rfl | rfl | rfl | rfl | rfl | rfl | rfl | rfl
    | rfl | rfl | rfl | rfl | rfl
  all_goals
    rw [decide_eq_true_iff]
    first
    | exact Iff.rfl
    | exact Nat.lt_succ_iff

/-- R170: the codes of the five compares. -/
theorem compareOf_isSome (n : Nat) : (compareOf n).isSome = true ↔ 1 ≤ n ∧ n ≤ 5 := by
  match n with
  | 0 | 1 | 2 | 3 | 4 | 5 => decide
  | n + 6 => simp [compareOf]

/-- R170: the codes of the five actions. -/
theorem actionOf_isSome (n : Nat) : (actionOf n).isSome = true ↔ 1 ≤ n ∧ n ≤ 5 := by
  match n with
  | 0 | 1 | 2 | 3 | 4 | 5 => decide
  | n + 6 => simp [actionOf]

/-- R41. -/
theorem checkCondition_spec (f : ConditionFields) :
    (f.enable = 0 → checkCondition f = none)
    ∧ (f.enable ≠ 0 → FirstFailing (ConditionFieldPasses f) 13 (checkCondition f)) := by
  refine ⟨fun h => by simp [checkCondition, h], fun h => ?_⟩
  unfold checkCondition
  rw [if_neg h]
  refine firstFailure_spec (ConditionFieldPasses f) _ 0 rfl (fun m h1 h2 => by omega) (fun x hx hp => ?_)
  simp only [List.mem_cons, List.not_mem_nil, or_false] at hx
  have cmp : 2 < x.1 → f.compare = 1 ∨ f.compare = 2 ∨ f.compare = 3 ∨ f.compare = 4 ∨ f.compare = 5 := fun k => by
    have := hp 2 (by decide) k
    simp only [ConditionFieldPasses] at this
    omega
  have act : 10 < x.1 → f.action = 1 ∨ f.action = 2 ∨ f.action = 3 ∨ f.action = 4 ∨ f.action = 5 := fun k => by
    have := hp 10 (by decide) k
    simp only [ConditionFieldPasses] at this
    omega
  rcases hx with rfl | rfl | rfl | rfl | rfl | rfl | rfl | rfl | rfl | rfl | rfl | rfl | rfl
  · exact decide_eq_true_iff.trans (show f.enable = 1 ↔ f.enable ≤ 1 by omega)
  · exact compareOf_isSome f.compare
  · exact decide_eq_true_iff
  · rcases cmp (by simp) with h | h | h | h | h <;> simp [ConditionFieldPasses, compareOf, h]
  · rcases cmp (by simp) with h | h | h | h | h <;> simp [ConditionFieldPasses, compareOf, levelInRange, h]
  · rcases cmp (by simp) with h | h | h | h | h <;>
      simp [ConditionFieldPasses, compareOf, levelInRange, levelsAgree, h]
  · rcases cmp (by simp) with h | h | h | h | h <;> simp [ConditionFieldPasses, compareOf, bandInRange, h]
  · exact decide_eq_true_iff
  · exact decide_eq_true_iff
  · exact actionOf_isSome f.action
  · rcases act (by simp) with h | h | h | h | h <;> simp [ConditionFieldPasses, actionOf, scopeInRange, h] <;> omega
  · exact decide_eq_true_iff
  · exact decide_eq_true_iff

/-- R43: the entries before the settings, and each in its order. -/
theorem firstBadEntry_spec (drafts : List ConditionFields) : ∀ i : Nat,
    match firstBadEntry i drafts with
    | none => ∀ f, f ∈ drafts → checkCondition f = none
    | some (place, field) => ∃ k f, place = i + k ∧ drafts[k]? = some f ∧ checkCondition f = some field
        ∧ ∀ j g, j < k → drafts[j]? = some g → checkCondition g = none := by
  induction drafts with
  | nil => intro i f hf; cases hf
  | cons f rest ih =>
    intro i
    unfold firstBadEntry
    cases hf : checkCondition f with
    | some field => exact ⟨0, f, rfl, rfl, hf, fun j g hj => absurd hj (Nat.not_lt_zero j)⟩
    | none =>
      have h := ih (i + 1)
      simp only []
      cases hr : firstBadEntry (i + 1) rest with
      | none =>
        rw [hr] at h
        intro g hg
        rcases List.mem_cons.mp hg with rfl | hg
        · exact hf
        · exact h g hg
      | some place =>
        rw [hr] at h
        obtain ⟨k, g, h1, h2, h3, h4⟩ := h
        refine ⟨k + 1, g, by omega, by simpa using h2, h3, fun j e hj he => ?_⟩
        cases j with
        | zero => simp only [List.getElem?_cons_zero, Option.some.injEq] at he; rw [← he]; exact hf
        | succ j => exact h4 j e (by omega) (by simpa using he)

/-- R43: the first failing place of a load. -/
theorem firstBadPlace_spec (drafts : List ConditionFields) (st : SiteSettings) :
    FirstFailingPlace drafts st (firstBadPlace drafts st) := by
  have h := firstBadEntry_spec drafts 0
  unfold firstBadPlace
  cases hr : firstBadEntry 0 drafts with
  | some place =>
    rw [hr] at h
    obtain ⟨k, f, h1, h2, h3, h4⟩ := h
    rw [Nat.zero_add] at h1
    subst h1
    exact Or.inl ⟨f, h2, h3, h4⟩
  | none =>
    rw [hr] at h
    cases hs : checkSettings st with
    | none => exact ⟨h, hs⟩
    | some field => exact Or.inr ⟨rfl, h, hs⟩

/-! ## The load (R40) -/

/-- A draft that has been read is what the load holds. -/
theorem Load.draftAt_read (l : Load) (m : Memory) (i : EntryIx) (h : i.val < l.drafts.length) :
    l.draftAt m i = l.drafts[i.val] := by simp [Load.draftAt, h]

/-- A draft that has not been read is read from memory. -/
theorem Load.draftAt_unread (l : Load) (m : Memory) (i : EntryIx) (h : l.drafts.length ≤ i.val) :
    l.draftAt m i = readCondition m i := by simp [Load.draftAt, h]

/-- Reading on, and the end of a load, leave what the load has read in front. -/
theorem Load.readTo_drafts (l : Load) (m : Memory) (upTo : Nat) :
    (l.readTo m upTo).drafts = l.drafts
      ++ (((List.finRange 96).drop l.drafts.length).take (upTo - l.drafts.length)).map (readCondition m) := rfl

/-! ## The conditions -/

/-- Events that change deliveries alone, one after another, change deliveries alone. -/
theorem forEach_links {α : Type} (l : List α) (g : α → State → State) (s : State)
    (hg : ∀ c t, g c t = { t with links := (g c t).links }) :
    forEach l g s = { s with links := (forEach l g s).links } := by
  refine forEach_keeps (fun t => t = { s with links := t.links }) g l s ?_ rfl
  intro c _ t ht
  rw [hg c t, ht]

/-- R32 to R35: the deliveries of an asserted action change nothing else. -/
theorem assertedDeliveries_frame (i : EntryIx) (f : ConditionFields) (s : State) :
    assertedDeliveries i f s = { s with links := (assertedDeliveries i f s).links
                                        trips := (assertedDeliveries i f s).trips } := by
  have keep : ∀ (l : List Channel) (g : Channel → State → State),
      (∀ c t, g c t = { t with links := (g c t).links }) →
      forEach l g s = { s with links := (forEach l g s).links, trips := (forEach l g s).trips } := by
    intro l g hg
    rw [forEach_links l g s hg]
  unfold assertedDeliveries
  cases actionOf f.action with
  | none => rfl
  | some a =>
    cases a with
    | note => rfl
    | foldback => exact keep _ _ (fun c t => rfl)
    | strike => exact keep _ _ (fun c t => rfl)
    | lockout => exact keep _ _ (fun c t => rfl)
    | positionTrip =>
      simp only []
      cases index 24 f.scope <;> rfl

/-- R32, R33: the deliveries of a withdrawn action change nothing else. -/
theorem withdrawnDeliveries_frame (i : EntryIx) (f : ConditionFields) (s : State) :
    withdrawnDeliveries i f s = { s with links := (withdrawnDeliveries i f s).links } := by
  unfold withdrawnDeliveries
  cases actionOf f.action with
  | none => rfl
  | some a =>
    cases a with
    | note => rfl
    | foldback => exact forEach_links _ _ s (fun c t => rfl)
    | strike => exact forEach_links _ _ s (fun c t => rfl)
    | lockout => rfl
    | positionTrip => rfl

/-- R30, R31: what an entry's move sends changes no entry. -/
theorem sendClaim_frame (after : Option Stamp) (claim : Claim) (i : EntryIx) (f : ConditionFields) (v : Nat)
    (s : State) :
    sendClaim after claim i f v s = { s with links := (sendClaim after claim i f v s).links
                                             trips := (sendClaim after claim i f v s).trips
                                             journal := (sendClaim after claim i f v s).journal } := by
  unfold sendClaim
  cases claim with
  | unchanged => rfl
  | asserted => simp only [assertAction]; rw [assertedDeliveries_frame]; rfl
  | withdrawn => simp only [withdrawAction]; rw [withdrawnDeliveries_frame]; rfl

/-- R20: evaluating one entry changes that entry alone. -/
theorem evaluateEntry_entry (p : Point) (after : Option Stamp) (i j : EntryIx) (s : State) :
    (evaluateEntry p after i s).entry j = if j = i then (arrivalMove s.scanner p (s.entry i)).1 else s.entry j := by
  unfold evaluateEntry arrivalMove watches
  by_cases h : (s.entry i).fields.enable = 1 ∧ (s.entry i).fields.pointA = p.val
  · simp only [h.1, h.2, beq_self_eq_true, Bool.and_self, if_true, and_self]
    rw [sendClaim_frame]
    simp [State.entry, State.setEntry, State.setEvaluator, look_put]
  · rw [if_neg (by simpa using h), if_neg h]
    split
    · rename_i k; subst k; rfl
    · rfl

/-- R20: the Input Scanner's values do not change while entries are evaluated. -/
theorem evaluateEntry_scanner (p : Point) (after : Option Stamp) (i : EntryIx) (s : State) :
    (evaluateEntry p after i s).scanner = s.scanner := by
  unfold evaluateEntry
  simp only []
  split
  · rw [sendClaim_frame]; rfl
  · rfl

end Sys2Proof.Machine
end

