-- ==== Sys2Proof/Tests/Slice0.lean ====
section
/-! SUPPORT. The model's own tests: ill-formed commands, worked examples of the manual, and for each statement a
state and operands that meet its hypotheses. -/

namespace Sys2Proof.Tests

open Sys2Proof.Machine

/-! ## Ill-formed commands -/

def noPins : Pins := ⟨Vector.replicate 8 false, false, Vector.replicate 24 false⟩

theorem test_wellFormed_resetCtl_bit0_clear : (Instr.controllerReset (.resetCtlWrite 2) noPins).wellFormed = false := by
  decide

theorem test_wellFormed_ignored_resetCtl_bit0_set : (Instr.registerWriteIgnored .resetCtl 1).wellFormed = false := by
  decide

theorem test_wellFormed_too_many_drafts : (Instr.slotStateWrite [.readDrafts 98] 0 1).wellFormed = false := by decide

theorem test_wellFormed_line_twice : (Instr.loadEnd [3, 3]).wellFormed = false := by decide

theorem test_wellFormed_entry_twice : (Instr.sampleArrival 0 0 [7, 7]).wellFormed = false := by decide

theorem test_wellFormed_field_twice : (Instr.statusRewrite [4, 4]).wellFormed = false := by decide

theorem test_wellFormed_field_out_of_range :
    (Instr.statusRewrite [statusFieldCount]).wellFormed = false
    ∧ (Instr.statusRewrite [statusFieldCount - 1]).wellFormed = true := by decide

theorem test_wellFormed_accepts :
    (Instr.controllerReset (.resetCtlWrite 1) noPins).wellFormed = true
    ∧ (Instr.registerWriteIgnored .resetCtl 2).wellFormed = true
    ∧ (Instr.slotStateWrite [.readDrafts 97] 15 1).wellFormed = true ∧ (Instr.loadEnd [3, 1]).wellFormed = true := by
  decide

theorem test_no_word_spells_a_command : decodeTableWord 8 0 = none := by decide

/-! ## Small states -/

/-- A profile that passes its checks. -/
def prof : Profile where
  installed := 63
  identity := 0x3A
  ceiling := #v[0, 300, 500, 650, 800, 900, 1000]
  group := 0
  rampStep := 100
  rampSpacing := 40
  holdoffTime := 200
  strikeWindow := 60
  confirmThreshold := 2
  lockoutThreshold := 4
  confirmTimeout := 30
  foldbackStep := 50
  recoveryStep := 10
  foldbackFloor := 200
  escalation := 3
  markTimeout := 100

theorem test_profile_passes : checkProfile prof = none := by decide

/-- The card at READY with nothing loaded. -/
def card : State := { State.reset with phase := .ready }

/-- Channel A in a state, with the profile loaded. -/
def chanA (st : ChannelState) (s : State) : State :=
  s.setChan 0 { state := st, profile := some prof, holdoff := none, extended := false, mute := !st.live }

/-- Channel A's deliveries. -/
def linkA (x : ChannelLinks) (s : State) : State := s.setLink 0 x

/-- No delivery on its way. -/
def quiet : ChannelLinks := ChannelLinks.reset

/-- A STRIKE entry on channels A and B that watches point 76: ABOVE, 3000 and 2800. -/
def strikeFields : ConditionFields := ⟨1, 1, 76, 0, 3000, 2800, 0, 3, 2, 3, 3, 0, 1⟩

/-- Entry 41 of the worked example of section 2.3, in a state with a count. -/
def entry41 (st : EntryState) (count : Nat) : LiveEntry := ⟨⟨1, 1, 76, 0, 3000, 2800, 0, 3, 2, 2, 2, 0, 0⟩, st, count, false⟩

/-- Slot `k` POSTED with a request, and the sweep about to visit it. -/
def asking (k : SlotIx) (kind w1 w2 w3 : Nat) (s : State) : State :=
  (s.write (slotAddress k) (numBytes 2 1 ++ numBytes 2 kind ++ numBytes 2 0 ++ numBytes 2 w1 ++ numBytes 2 w2
    ++ numBytes 2 w3)).setHandler ⟨some ⟨k.val, 0⟩, false, false⟩

/-- A request asked on a card that loads nothing is offered. -/
theorem asking_offered (k : SlotIx) (kind w1 w2 w3 : Nat) (s : State) (hl : s.evaluator.load = none)
    (h0 : kind < 65536) (h1 : w1 < 65536) (h2 : w2 < 65536) (h3 : w3 < 65536) :
    Offered (asking k kind w1 w2 w3 s) k 0 kind w1 w2 w3 where
  sweeping := rfl
  unloaded := hl
  posted := readNum_written _ _ 2 1 _ _ []
    (numBytes 2 kind ++ numBytes 2 0 ++ numBytes 2 w1 ++ numBytes 2 w2 ++ numBytes 2 w3) (by simp) (by simp)
    (by decide)
  kind := readNum_written _ _ 2 kind _ _ (numBytes 2 1)
    (numBytes 2 0 ++ numBytes 2 w1 ++ numBytes 2 w2 ++ numBytes 2 w3) (by simp) (by simp) h0
  word1 := readNum_written _ _ 2 w1 _ _ (numBytes 2 1 ++ numBytes 2 kind ++ numBytes 2 0)
    (numBytes 2 w2 ++ numBytes 2 w3) (by simp) (by simp) h1
  word2 := readNum_written _ _ 2 w2 _ _ (numBytes 2 1 ++ numBytes 2 kind ++ numBytes 2 0 ++ numBytes 2 w1)
    (numBytes 2 w3) (by simp) (by simp) h2
  word3 := readNum_written _ _ 2 w3 _ _
    (numBytes 2 1 ++ numBytes 2 kind ++ numBytes 2 0 ++ numBytes 2 w1 ++ numBytes 2 w2) [] (by simp) (by simp) h3

/-! ## Worked examples of the manual -/

/-- R22: the counts around the bounds of a window from 1200 to 3000 with hysteresis 100. -/
theorem test_r22_window :
    [1199, 1200, 1299, 1300, 2900, 2901, 3000, 3001].map (sideOf ⟨1, 3, 0, 0, 1200, 3000, 100, 1, 1, 1, 0, 0, 0⟩)
      = [.set, .neither, .neither, .clear, .clear, .neither, .neither, .set] := by decide

/-- Section 2.3: entry 41 through its thirteen arrivals. -/
theorem test_entry41 :
    ([2900, 3100, 3120, 2950, 3100, 3150, 3200, 2900, 2700, 2900, 3050, 2700, 2600].foldl
      (fun (x : LiveEntry × List EntryState) v =>
        let e := (x.1.take (sideOf x.1.fields v)).1
        (e, x.2 ++ [e.state])) (entry41 .normal 0, [])).2
      = [.normal, .arming, .arming, .normal, .arming, .arming, .active, .active, .clearing, .clearing, .active,
         .clearing, .normal] := by decide

/-- R23: the ratio in per mille, rounded down, and 0 below the forward floor. -/
theorem test_r23_ratio : ratio 300 1000 100 = 300 ∧ ratio 1 3 1 = 333 ∧ ratio 300 99 100 = 0 ∧ ratio 4095 1 1 = 65535 := by
  decide

/-- R81, R164: 65535 is followed by 1, and so is 4,294,967,295. -/
theorem test_numbers_skip_zero : numberAfter 65535 = 1 ∧ nextSequence 4294967295 = 1 ∧ nextSequence 0 = 1 := by decide

/-- R146: a sequence before a wrap counts as older than one after it. -/
theorem test_r146_wrap : sequencesBack 5 4294967290 = 10 ∧ sequencesBack 5 3 = 2 := by decide

/-- R117: three marks of foldback from an absent entry. -/
theorem test_r117_foldback :
    (((foldbackStep 0 (foldbackStep 0 (foldbackStep 0 (chanA .on card)))).resolver 0).foldback) = some 850 := by decide

/-- R142: the mask of a capture that channel D starts. -/
theorem test_r142_mask : (1#4 <<< (3 : Channel).val).toNat = 8 := by decide

/-! ## The hypotheses of the statements are met -/

theorem test_hyp_StepTakesTheFrontCommand :
    ({ card with pending := [.attn 0, .sweepEnd] } : State).pending = .attn 0 :: [.sweepEnd] ∧ card.pending = [] := by
  decide

theorem test_hyp_ResetsAreTaken :
    (1#16).getLsbD 0 = true ∧ (0xFFFE#16).getLsbD 0 = false ∧ State.reset.phase = .initializing ∧ card.phase = .ready
    ∧ ({ card with phase := .held false } : State).phase = .held false
    ∧ ({ card with phase := .held true } : State).phase = .held true
    ∧ Instr.attn 0 ≠ .supplyLoss ∧ Instr.attn 0 ≠ .powerOnReset true noPins
    ∧ Instr.attn 0 ≠ .backplaneResetRelease noPins := by decide

theorem test_hyp_BlocksAndMemoryAfterAReset :
    (∃ v : Word, Instr.controllerReset (.resetCtlWrite 1) noPins = .controllerReset (.resetCtlWrite v) noPins
      ∧ v.getLsbD 0 = true ∧ (card.phase = .initializing ∨ card.phase = .ready))
    ∧ ({ card with phase := .held true } : State).phase = .held true := ⟨⟨1, rfl, by decide, by decide⟩, rfl⟩

theorem test_hyp_TimeCounterCounts :
    running card = true ∧ card.now ≠ 4294967295 ∧ running { card with now := 4294967295 } = true
    ∧ ({ card with phase := .held false } : State).phase = .held false := by decide

theorem test_hyp_WrapPrunesEveryStrikeList :
    running (chanA .on { card with now := 4294967295 }) = true ∧ (chanA .on { card with now := 4294967295 }).now = 4294967295
    ∧ ((chanA .on card).chan 0).profile = some prof ∧ ((chanA .on card).chan 3).profile = none
    ∧ ((chanA .on card).strike 3).times = [] := by decide

/-- Section 12.1: the first real mark on FM-A at time 12, before READY, and the counter at 30. -/
def marked : State :=
  match exec (.realMark 0 1000) { State.reset with now := 12 } with
  | .next t => { t with now := 30 }
  | .fault _ | .refused _ => State.reset

/-- Section 12.1: one FRAME_MARK_BACK record of channel A is held until READY. -/
theorem test_held_record :
    marked.phase = .initializing ∧ heldRecords marked
      = [⟨0, .monitor 0, none, { time := 12, kind := .frameMarkBack, channel := some 0 }, false⟩] := by decide

/-- Section 12.1: at READY the held record is numbered 1 and stands in journal slot 0; JOURNAL is pending. -/
theorem test_held_record_is_numbered :
    (match exec .initializationEnd marked with
      | .next t => decide (t.phase = .ready ∧ t.journal.newest = 1 ∧ t.journal.next = 1 ∧ t.journal.waiting = []
          ∧ readNum t.mem 0x0080 4 = 1 ∧ readNum t.mem 0x0084 2 = 1 ∧ releaseWord t.mem = 0 ∧ journalPending t = true
          ∧ readNum t.mem 0x0600 4 = 1 ∧ readNum t.mem 0x0604 4 = 12 ∧ readNum t.mem 0x0608 1 = 14
          ∧ readNum t.mem 0x0609 1 = 0 ∧ readNum t.mem 0x060A 1 = 0xFF ∧ readNum t.mem 0x0620 4 = 0)
      | .fault _ | .refused _ => false) = true := by decide

theorem test_hyp_InitializationEnds :
    card.phase ≠ .initializing ∧ (heldRecords marked)[0]?.isSome = true ∧ (heldRecords marked).length ≤ 0 + 64
    ∧ InitArea.journal ∉ marked.initialized ∧ (∀ w ∈ heldRecords marked, w.record.kind = .frameMarkBack)
    ∧ State.reset.phase = .initializing ∧ State.reset.initialized = []
    ∧ State.reset.journal = ⟨0, 0, [], State.reset.journal.sent⟩
    ∧ (∀ c, State.reset.strike c = ⟨[], false, 0, 0, 0, 0, 1, none⟩) ∧ ∀ b, State.reset.buffer b = ⟨.free, 0, 0, 0⟩ := by
  decide

theorem test_hyp_AttnIsTaken :
    State.reset.phase ≠ .ready ∧ card.phase = .ready ∧ card.handler.sweep = none
    ∧ (asking 15 3 0 0 0 card).handler.sweep = some ⟨15, 0⟩ ∧ (asking 15 3 0 0 0 card).phase = .ready := by decide

theorem test_hyp_RegisterWrites : running card = true ∧ running { card with phase := .held true } = false := by decide

theorem test_hyp_ReleaseWordAndSlotState : card.phase ≠ .unpowered := by decide

theorem test_hyp_SlotStateIsWritten :
    State.reset.phase = .initializing ∧ State.reset.phase ≠ .unpowered ∧ InitArea.captures ∉ State.reset.initialized
    ∧ InitArea.captures ∈ ({ State.reset with initialized := [.captures] } : State).initialized
    ∧ card.phase ≠ .initializing ∧ card.evaluator.load = none
    ∧ ({ card with evaluator := { card.evaluator with load := some ⟨0, [readCondition [] 0], none⟩ } } : State).evaluator.load
      = some ⟨0, [readCondition [] 0], none⟩ := by decide

theorem test_hyp_StatusRegisterAndIrqLine :
    ({ card with phase := .held false } : State).phase = .held false ∧ State.reset.phase = .initializing
    ∧ running card = true ∧ card.phase = .ready := by decide

/-- A card as it leaves a reset is at rest. -/
theorem restLaw_reset (phase : Phase) (pending : List Instr) :
    RestLaw { State.reset with phase := phase, pending := pending } :=
  fun _ => ⟨rfl, rfl,
    (by decide : ∀ c, (State.reset.chan c).state = .off ∧ (State.reset.chan c).mute = true
      ∧ (State.reset.resolver c).drive = 0 ∧ (State.reset.strike c).pending = false),
    (by decide : ∀ p, (State.reset.position p).state ≠ .active ∧ (State.reset.position p).state ≠ .tripped
      ∧ (State.reset.position p).bias = false)⟩

theorem test_hyp_OutputLines :
    RestLaw State.reset ∧ State.reset.phase = .initializing ∧ RestLaw { State.reset with phase := .held true }
    ∧ card.phase ≠ .unpowered :=
  ⟨restLaw_reset .initializing [], rfl, restLaw_reset (.held true) [], by decide⟩

theorem test_hyp_SlotsAreVisitedAndSweepsEnd :
    (∀ k : SlotIx, k = 0 ∨ k = 15 → (card.setHandler ⟨some ⟨k.val, 3⟩, false, false⟩).handler.sweep = some ⟨k.val, 3⟩
      ∧ card.evaluator.load = none ∧ slotWord card.mem k 0 ≠ 1)
    ∧ ({ card with evaluator := { card.evaluator with load := some ⟨0, [], none⟩ } } : State).evaluator.load.isSome = true
    ∧ (card.setHandler ⟨some ⟨16, 0⟩, true, false⟩).handler.sweep = some ⟨16, 0⟩ := by decide

theorem test_hyp_RequestsAreAnsweredInTheirSlot :
    Offered (asking 0 0 4 0 0 card) 0 0 0 4 0 0 ∧ Offered (asking 15 13 0 0 0 card) 15 0 13 0 0 0
    ∧ Offered (asking 15 65535 0 0 0 card) 15 0 65535 0 0 0 ∧ Offered (asking 7 12 3 65535 65535 card) 7 0 12 3 65535 65535 :=
  ⟨asking_offered _ _ _ _ _ _ rfl (by decide) (by decide) (by decide) (by decide),
    asking_offered _ _ _ _ _ _ rfl (by decide) (by decide) (by decide) (by decide),
    asking_offered _ _ _ _ _ _ rfl (by decide) (by decide) (by decide) (by decide),
    asking_offered _ _ _ _ _ _ rfl (by decide) (by decide) (by decide) (by decide)⟩

/-- A card in a load, the sweep at its slot. -/
def loading (l : Load) (s : State) : State :=
  { s with evaluator := { s.evaluator with load := some l }, handler := ⟨some ⟨l.slot.val, 2⟩, false, false⟩ }

/-- A load that has read nothing, its request in slot 15. -/
def fresh : Load := ⟨15, [], none⟩

/-- A load that has read draft 0, a STRIKE entry, and the settings draft. -/
def half : Load := ⟨0, [strikeFields], some SiteSettings.blank⟩

theorem test_hyp_LoadBeginsAndIsRefused :
    Offered (asking 15 1 0 0 0 card) 15 0 1 0 0 0
    ∧ (loading half card).evaluator.load = some half ∧ (loading half card).handler.sweep = some ⟨half.slot.val, 2⟩
    ∧ half.drafts.length ≤ 96
    ∧ firstBadPlace ((List.finRange 96).map (fresh.draftAt [(0x1000 + 32 * 95, 2)]))
        (fresh.settingsAt [(0x1000 + 32 * 95, 2)]) = some (95, 1)
    ∧ firstBadPlace ((List.finRange 96).map (fresh.draftAt [(0x004B, 16)])) (fresh.settingsAt [(0x004B, 16)])
      = some (96, 2)
    ∧ firstBadPlace ((List.finRange 96).map (half.draftAt [(0x1000, 2), (0x1020, 2)]))
        (half.settingsAt [(0x1000, 2), (0x1020, 2)]) = some (1, 1) :=
  ⟨asking_offered _ _ _ _ _ _ rfl (by decide) (by decide) (by decide) (by decide), by decide, by decide, by decide,
    by decide, by decide, by decide⟩

/-- R41, R42, R51: an entry, a settings draft and a profile at the edge of a check and one past it. -/
theorem test_checks_at_their_edges :
    checkCondition { strikeFields with enable := 2 } = some 1 ∧ checkCondition { strikeFields with compare := 6 } = some 2
    ∧ checkCondition { strikeFields with pointA := 95 } = none ∧ checkCondition { strikeFields with pointA := 96 } = some 3
    ∧ checkCondition { strikeFields with level2 := 3001 } = some 6
    ∧ checkCondition { strikeFields with setCount := 0, capture := 2 } = some 8
    ∧ checkCondition { strikeFields with scope := 16 } = some 11 ∧ checkCondition { strikeFields with capture := 2 } = some 13
    ∧ checkCondition { strikeFields with enable := 0, compare := 9, capture := 9 } = none
    ∧ checkSettings { SiteSettings.blank with preemptHold := 256 } = some 3
    ∧ checkSettings { SiteSettings.blank with arcScope := put SiteSettings.blank.arcScope 7 16 } = some 2
    ∧ checkProfile { prof with ceiling := #v[0, 200, 400, 350, 800, 900, 1000] } = some 6
    ∧ checkProfile { prof with identity := 0xFF } = some 2 ∧ checkProfile { prof with lockoutThreshold := 2 } = some 16
    ∧ checkProfile { prof with markTimeout := 1001 } = some 22 := by decide

theorem test_hyp_LoadSwitchesTheTable :
    (loading fresh card).evaluator.load = some fresh ∧ (loading fresh card).handler.sweep = some ⟨fresh.slot.val, 2⟩
    ∧ fresh.drafts.length ≤ 96 ∧ half.drafts.length ≤ 96
    ∧ firstBadPlace ((List.finRange 96).map (fresh.draftAt card.mem)) (fresh.settingsAt card.mem) = none
    ∧ firstBadPlace ((List.finRange 96).map (half.draftAt card.mem)) (half.settingsAt card.mem) = none
    ∧ ((List.finRange 96).map (fresh.draftAt card.mem)).length = 96
    ∧ switchWithdraws (card.setEntry 41 (entry41 .active 0)) half = [41]
    ∧ ([3, 1] : List ArcLine).Nodup := by decide

/-- The card with a latched entry 95 in a state. -/
def latched (st : EntryState) (seen : Bool) : State :=
  card.setEntry 95 ⟨⟨1, 1, 76, 0, 3000, 2800, 0, 3, 2, 2, 2, 1, 0⟩, st, 0, seen⟩

theorem test_hyp_ClearConditionIsTaken :
    Offered (asking 0 8 96 0 0 card) 0 0 8 96 0 0 ∧ Offered (asking 0 8 95 0 0 (latched .active true)) 0 0 8 95 0 0
    ∧ ((latched .active true).entry 95).state = .active ∧ ((latched .active true).entry 95).clearSeen = true
    ∧ ((latched .active true).entry 95).fields.latch = 1 ∧ ((latched .active false).entry 95).clearSeen = false
    ∧ ((latched .normal false).entry 95).state ≠ .active :=
  ⟨asking_offered _ _ _ _ _ _ rfl (by decide) (by decide) (by decide) (by decide),
    asking_offered _ _ _ _ _ _ rfl (by decide) (by decide) (by decide) (by decide), by decide, by decide, by decide,
    by decide, by decide⟩

/-- A draft of the test profile for channel D, in an otherwise empty memory. -/
def drafted : Memory :=
  writeBytes [] (Config.profileBase + 64 * 3) (numBytes 1 63 ++ numBytes 1 0x3A ++ numBytes 2 0 ++ numBytes 2 300
    ++ numBytes 2 500 ++ numBytes 2 650 ++ numBytes 2 800 ++ numBytes 2 900 ++ numBytes 2 1000 ++ numBytes 1 0
    ++ numBytes 1 2 ++ numBytes 2 100 ++ numBytes 2 40 ++ numBytes 2 200 ++ numBytes 2 60 ++ numBytes 1 4 ++ numBytes 1 3
    ++ numBytes 2 30 ++ numBytes 2 50 ++ numBytes 2 10 ++ numBytes 2 200 ++ numBytes 2 100)

theorem test_profile_draft_is_read : readProfile drafted 3 = prof := by decide

theorem test_hyp_LoadProfileIsTaken :
    Offered (asking 15 2 4 0 0 card) 15 0 2 4 0 0 ∧ ((chanA .on card).chan 0).state ≠ .off ∧ (card.chan 3).state = .off
    ∧ checkProfile (readProfile [] 3) = some 11 ∧ checkProfile (readProfile drafted 3) = none :=
  ⟨asking_offered _ _ _ _ _ _ rfl (by decide) (by decide) (by decide) (by decide), by decide, by decide, by decide,
    by decide⟩

/-- A card on which CHANNEL_ON of channel A is accepted. -/
def readyToGo : State :=
  chanA .off { card with
    scanner := { card.scanner with interlockClosed := true }, evaluator := { card.evaluator with configured := true } }

theorem test_hyp_ChannelOnQueuesTheChannel :
    Offered (asking 15 3 0 1000 0 readyToGo) 15 0 3 0 1000 0 ∧ (asking 15 3 0 1000 0 readyToGo).evaluator.configured = true
    ∧ ((asking 15 3 0 1000 0 readyToGo).chan 0).profile = some prof
    ∧ ((asking 15 3 0 1000 0 readyToGo).chan 0).state = .off
    ∧ (asking 15 3 0 1000 0 readyToGo).scanner.interlockClosed = true
    ∧ ∀ i, bearsOn .strike 0 ((asking 15 3 0 1000 0 readyToGo).entry i) = false
      ∧ bearsOn .lockout 0 ((asking 15 3 0 1000 0 readyToGo).entry i) = false :=
  ⟨asking_offered _ _ _ _ _ _ rfl (by decide) (by decide) (by decide) (by decide), by decide, by decide, by decide,
    by decide, by decide⟩

theorem test_hyp_ChannelOnIsChecked :
    Offered (asking 15 3 4 0 0 card) 15 0 3 4 0 0 ∧ Offered (asking 15 3 3 1001 0 card) 15 0 3 3 1001 0
    ∧ card.evaluator.configured = false ∧ (readyToGo.chan 1).profile = none ∧ readyToGo.evaluator.configured = true
    ∧ ((chanA .lockout readyToGo).chan 0).state ≠ .off ∧ ((chanA .lockout readyToGo).chan 0).profile ≠ none
    ∧ ({ readyToGo with scanner := card.scanner } : State).scanner.interlockClosed = false
    ∧ bearsOn .strike 0 ⟨strikeFields, .clearing, 1, false⟩ = true :=
  ⟨asking_offered _ _ _ _ _ _ rfl (by decide) (by decide) (by decide) (by decide),
    asking_offered _ _ _ _ _ _ rfl (by decide) (by decide) (by decide) (by decide), by decide, by decide, by decide,
    by decide, by decide, by decide, by decide⟩

theorem test_hyp_ChannelOffIsTaken :
    Offered (asking 0 4 4 0 0 card) 0 0 4 4 0 0 ∧ (card.chan 3).state = .off
    ∧ ((chanA .lockout card).chan 0).state = .lockout ∧ ((chanA .confirmWait card).chan 0).state ≠ .off
    ∧ ((chanA .confirmWait card).chan 0).state ≠ .lockout
    ∧ (((chanA .confirmWait card).setStrike 0 ⟨[0, 5], true, 65535, 2, 0, 30000, 1, some 30000⟩).strike 0).pending
      = true :=
  ⟨asking_offered _ _ _ _ _ _ rfl (by decide) (by decide) (by decide) (by decide), by decide, by decide, by decide,
    by decide, by decide⟩

theorem test_hyp_SetTargetIsTaken :
    Offered (asking 0 5 4 1000 0 card) 0 0 5 4 1000 0 ∧ Offered (asking 0 5 3 1001 0 card) 0 0 5 3 1001 0
    ∧ (card.chan 3).profile = none ∧ ((chanA .on card).chan 0).profile ≠ none
    ∧ ((chanA .on card).resolver 0).target ≠ some 1000
    ∧ (((chanA .on card).setResolver 0 { DriveResolver.reset with target := some 1000 }).resolver 0).target = some 1000 :=
  ⟨asking_offered _ _ _ _ _ _ rfl (by decide) (by decide) (by decide) (by decide),
    asking_offered _ _ _ _ _ _ rfl (by decide) (by decide) (by decide) (by decide), by decide, by decide, by decide,
    by decide⟩

/-- Channel A waits for the answer to confirmation 65535, due at 30000. -/
def waiting : State :=
  (chanA .confirmWait card).setStrike 0 ⟨[0, 5], true, 65535, 2, 0, 30000, 1, some 30000⟩

theorem test_hyp_ConfirmRestrikeIsTaken :
    Offered (asking 0 6 4 0 0 card) 0 0 6 4 0 0 ∧ Offered (asking 0 6 3 0 2 card) 0 0 6 3 0 2
    ∧ Offered (asking 0 6 0 65535 1 waiting) 0 0 6 0 65535 1 ∧ (waiting.strike 0).pending = true
    ∧ (waiting.strike 0).number.toNat = 65535 ∧ (waiting.chan 0).profile = some prof
    ∧ ¬((card.strike 3).pending = true ∧ (card.strike 3).number.toNat = 0) :=
  ⟨asking_offered _ _ _ _ _ _ rfl (by decide) (by decide) (by decide) (by decide),
    asking_offered _ _ _ _ _ _ rfl (by decide) (by decide) (by decide) (by decide),
    asking_offered _ _ _ _ _ _ rfl (by decide) (by decide) (by decide) (by decide), by decide, by decide, by decide,
    by decide⟩

theorem test_hyp_ReleaseLockoutIsTaken :
    Offered (asking 0 7 4 0 0 card) 0 0 7 4 0 0 ∧ Offered (asking 0 7 0 0 0 (chanA .lockout card)) 0 0 7 0 0 0
    ∧ (card.chan 3).state ≠ .lockout ∧ ((chanA .lockout card).chan 0).state = .lockout
    ∧ bearsOn .lockout 0 ⟨{ strikeFields with action := 4 }, .active, 0, false⟩ = true
    ∧ ∀ i, bearsOn .lockout 0 ((chanA .lockout card).entry i) = false :=
  ⟨asking_offered _ _ _ _ _ _ rfl (by decide) (by decide) (by decide) (by decide),
    asking_offered _ _ _ _ _ _ rfl (by decide) (by decide) (by decide) (by decide), by decide, by decide, by decide,
    by decide⟩

/-- Position 23, the last of channel D, in a state, with its channel's profile. -/
def seat (st : PositionState) (s : State) : State :=
  (s.setChan 3 { ChannelController.reset with profile := some prof }).setPosition 23
    ⟨st, 0x3A, st == .active, true, none, none⟩

theorem test_hyp_PositionsGoInAndOutOfService :
    Offered (asking 0 9 24 0 0 card) 0 0 9 24 0 0 ∧ Offered (asking 0 10 23 0 0 (seat .active card)) 0 0 10 23 0 0
    ∧ ((card.chan (channelOf 0)).profile = none) ∧ ((seat .disabled card).chan (channelOf 23)).profile = some prof
    ∧ prof.installed.testBit (23 % 6) = true ∧ ({ prof with installed := 31 } : Profile).installed.testBit (23 % 6) = false
    ∧ tripBearing 23 (seat .disabled card) = false
    ∧ tripBearing 23 (card.setEntry 0 ⟨{ strikeFields with action := 5, scope := 23 }, .active, 0, false⟩) = true
    ∧ ((seat .disabled card).position 23).state = .disabled ∧ ((seat .tripped card).position 23).state = .tripped
    ∧ ((seat .active card).position 23).state = .active ∧ (card.position 0).state = .empty :=
  ⟨asking_offered _ _ _ _ _ _ rfl (by decide) (by decide) (by decide) (by decide),
    asking_offered _ _ _ _ _ _ rfl (by decide) (by decide) (by decide) (by decide), by decide, by decide, by decide,
    by decide, by decide, by decide, by decide, by decide, by decide, by decide⟩

/-- Buffer 3 in a state, under the greatest trigger sequence. -/
def buffered (st : BufferState) : State := card.setBuffer 3 ⟨st, 4294967295, 0, 1⟩

theorem test_hyp_CapturesAreHeldAndReleased :
    Offered (asking 0 11 4 0 0 card) 0 0 11 4 0 0
    ∧ Offered (asking 0 12 3 65535 65535 (buffered .ready)) 0 0 12 3 65535 65535
    ∧ ((buffered .ready).buffer 3).state = .ready ∧ ((buffered .held).buffer 3).state = .held
    ∧ ((buffered .held).buffer 3).sequence.toNat = 65535 + 65536 * 65535
    ∧ ((buffered .held).buffer 3).sequence.toNat ≠ 65534 + 65536 * 65535
    ∧ (card.buffer 3).state = .free ∧ ((buffered .filling).buffer 3).state = .filling :=
  ⟨asking_offered _ _ _ _ _ _ rfl (by decide) (by decide) (by decide) (by decide),
    asking_offered _ _ _ _ _ _ rfl (by decide) (by decide) (by decide) (by decide), by decide, by decide, by decide,
    by decide, by decide, by decide⟩

theorem test_hyp_ArrivalsWriteTheirPoint : running card = true ∧ running { card with phase := .unpowered } = false := by
  decide

theorem test_hyp_ArrivalsFillTheCapture :
    (∀ b, (card.buffer b).state ≠ .filling) ∧ (83 : Nat) ∉ [84, 85, 73, 76, 79, 82]
    ∧ ((buffered .filling).buffer 3).state = .filling
    ∧ (∀ a, ((buffered .filling).buffer a).state = .filling → a = 3)
    ∧ (82 : Point).val = [84, 85, 73, 76, 79, 82].getD (5 : CapturedIx).val 96
    ∧ look (buffered .filling).captures.postCounts 5 < 64
    ∧ 64 ≤ look (put (buffered .filling).captures.postCounts 5 64) 5 := by decide

theorem test_hyp_AboveAndBelowSides :
    compareOf strikeFields.compare = some .above ∧ checkCondition strikeFields = none ∧ strikeFields.enable = 1
    ∧ checkCondition { strikeFields with compare := 2, level1 := 0, level2 := 4095 } = none
    ∧ compareOf 2 = some .below ∧ checkCondition { strikeFields with level1 := 4095, level2 := 0 } = none
    ∧ ((card.setEntry 0 ⟨{ strikeFields with level2 := 0 }, .active, 0, false⟩).entry 0).state = .active
    ∧ exec (.registerWriteIgnored .status 0) card = .next card :=
  ⟨by decide, by decide, by decide, by decide, by decide, by decide, by decide, rfl⟩

theorem test_hyp_OutsideRatioAndStepSides :
    checkCondition { strikeFields with compare := 3, level1 := 1200, level2 := 3000, band := 899 } = none
    ∧ checkCondition { strikeFields with compare := 4, pointB := 95, level1 := 60000, band := 4095 } = none
    ∧ checkCondition { strikeFields with compare := 5 } = none
    ∧ compareOf 3 = some .outside ∧ compareOf 4 = some .ratioAbove ∧ compareOf 5 = some .stepAbove := by decide

/-- Entry 41 in each of its states keeps the law of an entry. -/
theorem test_hyp_EntriesMoveBySide :
    EntryLaw (entry41 .normal 0) ∧ EntryLaw (entry41 .arming 2) ∧ EntryLaw (entry41 .active 0)
    ∧ EntryLaw (entry41 .clearing 1) ∧ EntryLaw LiveEntry.blank
    ∧ EntryLaw ⟨{ strikeFields with latch := 1 }, .active, 0, true⟩ :=
  ⟨⟨by decide, by decide, by decide, by decide, by decide, by decide⟩,
    ⟨by decide, by decide, by decide, by decide, by decide, by decide⟩,
    ⟨by decide, by decide, by decide, by decide, by decide, by decide⟩,
    ⟨by decide, by decide, by decide, by decide, by decide, by decide⟩,
    ⟨by decide, by decide, by decide, by decide, by decide, by decide⟩,
    ⟨by decide, by decide, by decide, by decide, by decide, by decide⟩⟩

theorem test_hyp_ArrivalsAreEvaluated : running (card.setEntry 41 (entry41 .arming 2)) = true := by decide

theorem test_hyp_ArcLinesChange :
    running card = true ∧ (1000 : Nat) ≤ 1000 ∧ (999 : Nat) < 1000 ∧ look card.scanner.arcAsserted 7 = false
    ∧ look (setArc 7 true card).scanner.arcAsserted 7 = true := by decide

theorem test_hyp_InterlockFollowsTheLoop :
    running readyToGo = true ∧ readyToGo.scanner.interlockClosed = true ∧ card.scanner.interlockClosed = false
    ∧ (card.setScanner { card.scanner with closureTimer := some 200 }).scanner.closureTimer = some 200
    ∧ ((200 : Time) - 200).toNat < 2147483648 ∧ 2147483648 ≤ ((199 : Time) - 200).toNat := by decide

theorem test_hyp_FrameMarksAreMonitored :
    running { card with now := 250 } = true
    ∧ ({ card with now := 250 } : State).monitor 3 = ⟨false, 0, 250, 0⟩
    ∧ ((250 : Time) - 0).toNat = 250 ∧ ((249 : Time) - 0).toNat < 250
    ∧ ((card.setMonitor 3 ⟨true, 0, 250, 1⟩).monitor 3).present = true := by decide

theorem test_hyp_ResolvedLevelAndSource :
    DriveResolver.reset.ramp = none ∧ DriveResolver.reset.target = none
    ∧ ({ DriveResolver.reset with ramp := some 500, target := some 500, positions := some 1000 } : DriveResolver).resolved
      = 500 := by decide

/-- Channel A ramping, holding the engine after its first step at time 0, with a mark on its way. -/
def rampingA (now : Time) : State :=
  { (linkA { quiet with marks := 1 } (chanA .ramping card)).setResolver 0
      { DriveResolver.reset with target := some 800, positions := some 1000, ramp := some 100, foldback := some 200
                                 activeSet := [41], floorMarks := 2 } with
    arbiter := ⟨[], [], .held 0, 1, 0, false⟩, now := now }

theorem test_hyp_MarksDriveTheChannel :
    ((rampingA 40).link 0).marks = 0 + 1 ∧ ((rampingA 40).chan 0).profile = some prof
    ∧ (rampingA 40).arbiter.engine = .held 0 ∧ prof.rampSpacing ≤ ((rampingA 40).now - (rampingA 40).arbiter.lastStep).toNat
    ∧ ¬ prof.rampSpacing ≤ ((rampingA 39).now - (rampingA 39).arbiter.lastStep).toNat
    ∧ ((rampingA 40).resolver 0).activeSet ≠ [] ∧ ((rampingA 40).resolver 0).foldback = some prof.foldbackFloor
    ∧ ((rampingA 40).resolver 0).floorMarks + 1 = prof.escalation ∧ (card.link 3).marks = 0
    ∧ ((card.setLink 3 { quiet with marks := 1 }).link 3).marks = 0 + 1 ∧ (card.chan 3).state = .off
    ∧ (card.chan 3).mute = true ∧ card.arbiter.engine ≠ .held 3 := by decide

theorem test_hyp_DriveResolverTakesDeliveries :
    ((linkA { quiet with counts := [6, 5] } (chanA .on card)).link 0).counts = 6 :: [5]
    ∧ ((chanA .on card).chan 0).profile = some prof ∧ ((chanA .on card).chan 0).mute = false
    ∧ ((linkA { quiet with foldback := [.join 95] } card).link 0).foldback = .join 95 :: []
    ∧ ((linkA { quiet with foldback := [.leave 0] } card).link 0).foldback = .leave 0 :: []
    ∧ (card.link 0).counts = [] ∧ ((linkA { quiet with counts := [0] } card).chan 0).profile = none
    ∧ (card.link 0).foldback.head? = none := by decide

/-- The engine granted to channel A, which is in a state. -/
def grantedA (st : ChannelState) : State := { chanA st card with arbiter := ⟨[0, 3], [2], .granted 0, 0, 0, false⟩ }

theorem test_hyp_GrantIsTaken :
    (grantedA .queued).arbiter.engine = .granted 0 ∧ ((grantedA .queued).chan 0).state = .queued
    ∧ ((grantedA .paused).chan 0).state = .paused ∧ ((grantedA .off).chan 0).state ≠ .queued
    ∧ ((grantedA .off).chan 0).state ≠ .paused ∧ card.arbiter.engine ≠ .granted 0 := by decide

theorem test_hyp_EngineHolderIsServed :
    ((linkA ⟨[], [], 0, 1, 1, 0, 1, [], []⟩ (rampingA 0)).link 0).completions = 0 + 1
    ∧ ((linkA ⟨[], [], 0, 1, 1, 0, 1, [], []⟩ (rampingA 0)).link 0).preemptions = 0 + 1
    ∧ ((linkA ⟨[], [], 0, 1, 1, 0, 1, [], []⟩ (rampingA 0)).link 0).reports = 0 + 1
    ∧ ((rampingA 0).chan 0).state = .ramping ∧ ((chanA .on card).chan 0).state ≠ .ramping
    ∧ ((rampingA 0).chan 0).mute = false
    ∧ (∀ p, ((rampingA 0).chan 0).profile = some p → p.group ≠ 1)
    ∧ (((rampingA 0).setChan 0 ⟨.ramping, some { prof with group := 1 }, none, false, false⟩).chan 0).profile
      = some { prof with group := 1 }
    ∧ checkProfile { prof with group := 1 } = none := by
  refine ⟨by decide, by decide, by decide, by decide, by decide, by decide, fun p h => ?_, by decide, by decide⟩
  rw [← Option.some.inj (show some prof = some p from h)]
  decide

/-- Channel A in a state, struck by arc line 8, with three strikes in its list. -/
def struck (st : ChannelState) : State :=
  (linkA { quiet with fromScanner := [⟨.strike 7, 4⟩], exhausted := 1, fromEvaluator := [⟨.strike 95 false, 2⟩] }
    (chanA st card)).setStrike 0 ⟨[0, 0, 0], false, 0, 0, 0, 0, 1, none⟩

theorem test_hyp_StrikesAreTaken :
    nextStrike (struck .on) 0 .scanner = some (.arcLine 7, some ⟨.scanner, 4⟩,
      { quiet with fromScanner := [], exhausted := 1, fromEvaluator := [⟨.strike 95 false, 2⟩] })
    ∧ nextStrike (struck .on) 0 .evaluator = some (.condition 95 false, some ⟨.evaluator, 2⟩,
      { quiet with fromScanner := [⟨.strike 7, 4⟩], exhausted := 1, fromEvaluator := [] })
    ∧ nextStrike (struck .on) 0 .foldback = some (.foldbackExhausted, none,
      { quiet with fromScanner := [⟨.strike 7, 4⟩], exhausted := 0, fromEvaluator := [⟨.strike 95 false, 2⟩] })
    ∧ ((struck .on).chan 0).profile = some prof ∧ ((struck .on).chan 0).state.live = true
    ∧ (recentStrikes (struck .on) 0 prof).length + 1 = prof.lockoutThreshold
    ∧ (recentStrikes (chanA .on card) 0 prof).length + 1 ≠ prof.lockoutThreshold
    ∧ ((struck .holdoff).chan 0).state = .holdoff ∧ ((struck .queued).chan 0).state = .queued
    ∧ ((struck .confirmWait).chan 0).state = .confirmWait ∧ ((struck .off).chan 0).state = .off
    ∧ ((struck .lockout).chan 0).state = .lockout ∧ ((struck .interlocked).chan 0).state = .interlocked := by decide

theorem test_hyp_LockoutsAndOpeningsAreTaken :
    ((linkA { quiet with fromEvaluator := [⟨.lockout 95 true, 1⟩] } (chanA .on card)).link 0).fromEvaluator
      = ⟨.lockout 95 true, 1⟩ :: []
    ∧ ((linkA { quiet with fromScanner := [⟨.opened, 0⟩] } (chanA .on card)).link 0).fromScanner = ⟨.opened, 0⟩ :: []
    ∧ (card.chan 0).state = .off ∧ ((chanA .interlocked card).chan 0).state = .interlocked
    ∧ ((chanA .on card).chan 0).state = .on ∧ (waiting.strike 0).pending = true
    ∧ (waiting.chan 0).state = .confirmWait := by decide

/-- Channel A in HOLDOFF, its timer ending at 200. -/
def holding (now : Time) : State :=
  { card.setChan 0 ⟨.holdoff, some prof, some 200, false, true⟩ with now := now }

theorem test_hyp_HoldoffExpires :
    ((holding 200).chan 0).profile = some prof ∧ ((holding 200).chan 0).state = .holdoff
    ∧ ((holding 200).chan 0).holdoff = some 200 ∧ ((holding 200).now - 200).toNat < 2147483648
    ∧ 2147483648 ≤ ((holding 199).now - 200).toNat ∧ (∀ l, arcHolds (holding 200) l 0 = false)
    ∧ (∀ i, bearsOn .strike 0 ((holding 200).entry i) = false)
    ∧ bearsOn .strike 0 (((holding 200).setEntry 0 ⟨strikeFields, .active, 0, false⟩).entry 0) = true := by decide

/-- Channel A in extended HOLDOFF with a clearing on its way. -/
def extendedA : State :=
  (card.setChan 0 ⟨.holdoff, some prof, none, true, true⟩).setLink 0
    { quiet with fromScanner := [⟨.arcCleared 7, 0⟩], fromEvaluator := [⟨.conditionCleared 95, 3⟩] }

theorem test_hyp_ClearingsAndClosuresAreTaken :
    (extendedA.link 0).fromScanner = ⟨.arcCleared 7, 0⟩ :: []
    ∧ (extendedA.link 0).fromEvaluator = ⟨.conditionCleared 95, 3⟩ :: []
    ∧ (extendedA.chan 0).state = .holdoff ∧ (extendedA.chan 0).extended = true ∧ (extendedA.chan 0).profile = some prof
    ∧ (∀ l, arcHolds extendedA l 0 = false) ∧ (∀ i, bearsOn .strike 0 (extendedA.entry i) = false)
    ∧ ((linkA { quiet with fromScanner := [⟨.closed, 1⟩] } (chanA .interlocked card)).link 0).fromScanner
      = ⟨.closed, 1⟩ :: []
    ∧ ((chanA .interlocked card).chan 0).state = .interlocked ∧ ((chanA .off card).chan 0).state ≠ .interlocked := by
  decide

theorem test_hyp_ConfirmationExpires :
    (waiting.strike 0).pending = true ∧ (waiting.strike 0).timer = some 30000
    ∧ ((30000 : Time) - 30000).toNat < 2147483648 ∧ 2147483648 ≤ (waiting.now - 30000).toNat := by decide

theorem test_hyp_ModulesComeAndGo :
    running (seat .active card) = true ∧ ((seat .active card).position 23).presence ≠ false
    ∧ ((seat .active card).position 23).state ≠ .empty ∧ (card.position 0).state = .empty
    ∧ (card.position 0).presence ≠ true ∧ (1000000 : Nat) ≤ 1000000 ∧ (999999 : Nat) < 1000000
    ∧ ((card.setPosition 0 ⟨.empty, 0xFF, false, true, some 100, none⟩).position 0).presenceTimer = some 100
    ∧ ((100 : Time) - 100).toNat < 2147483648 ∧ 2147483648 ≤ ((99 : Time) - 100).toNat
    ∧ ((card.setPosition 0 ⟨.disabled, 0, false, false, none, none⟩).position 0).presence ≠ true := by decide

theorem test_hyp_ModulesAreIdentifiedAndTripped :
    ((card.setPosition 0 ⟨.identifying, 0xFF, false, true, none, some 140⟩).position 0).read = some 140
    ∧ ((card.setPosition 0 ⟨.identifying, 0xFF, false, true, none, some 140⟩).position 0).state = .identifying
    ∧ (card.chan (channelOf 0)).profile = none ∧ ((seat .active card).chan (channelOf 23)).profile = some prof
    ∧ ((card.setTrips [⟨0, 1, 0⟩, ⟨23, 95, 7⟩]).trips = [⟨0, 1, 0⟩] ++ ⟨23, 95, 7⟩ :: [])
    ∧ (∀ d ∈ ([⟨0, 1, 0⟩] : List TripDelivery), ¬(d.position = 23 ∧ d.entry = 95))
    ∧ ((seat .active card).position 23).state = .active := by decide

/-- A STRIKE record of channel A that awaits its capture. -/
def awaiting : WaitingRecord := ⟨0, .channel 0, none, { time := 0, kind := .strike, channel := some 0 }, true⟩

/-- The card with that record sent, captures enabled, and a capture policy. -/
def triggered (policy : Nat) (s : State) : State :=
  { s with
    journal := ⟨4294967295, 63, [awaiting], 1⟩
    evaluator := { s.evaluator with settings := { SiteSettings.blank with captureEnable := 1, capturePolicy := policy } } }

theorem test_hyp_TriggersAreTaken :
    (triggered 0 card).journal.waiting = [] ++ awaiting :: [] ∧ awaiting.sender = .channel 0
    ∧ awaiting.awaitsCapture = true ∧ card.evaluator.settings.captureEnable ≠ 1
    ∧ (triggered 1 card).evaluator.settings.captureEnable = 1 ∧ (card.buffer 3).state = .free
    ∧ (∀ b, (card.buffer b).state ≠ .filling) ∧ ((buffered .filling).buffer 3).state = .filling
    ∧ (∀ a, ((buffered .filling).buffer a).state = .filling → a = 3)
    ∧ (triggered 1 card).evaluator.settings.capturePolicy = 1 ∧ ((buffered .ready).buffer 3).state = .ready
    ∧ look (look card.scanner.rings 5).slots ((look card.scanner.rings 5).index + 63) < 65536 := by decide

theorem test_hyp_RecordsAreNumbered :
    State.reset.phase ≠ .ready ∧ (∀ v ∈ (triggered 0 card).journal.waiting, v.sender ≠ .evaluator)
    ∧ (triggered 0 card).phase = .ready ∧ inTurn [awaiting] awaiting = false
    ∧ inTurn [{ awaiting with awaitsCapture := false }] { awaiting with awaitsCapture := false } = true
    ∧ startedBuffer { awaiting.record with buffer := some 3 } = some 3 ∧ startedBuffer awaiting.record = none
    ∧ ((buffered .filling).buffer 3).state = .filling
    ∧ (∀ a, ((buffered .filling).buffer a).state = .filling → a = 3) := by decide

theorem test_hyp_StatusBlockIsRewritten :
    card.phase = .ready ∧ card.status.copied = none ∧ (card.now - card.status.due).toNat < 2147483648
    ∧ 2147483648 ≤ ((9 : Time) - 10).toNat
    ∧ (card.setStatus ⟨1, 10, some []⟩).status.copied = some []
    ∧ (card.setStatus ⟨1, 10, some [0]⟩).status.copied = some [0]
    ∧ (statusFields card)[0]? = some ⟨0x004, 4, 0⟩ ∧ (0 : Nat) ∉ ([] : List Nat) ∧ (0 : Nat) ∈ [0]
    ∧ ((statusFields card)[statusFieldCount - 1]?).isSome = true ∧ statusFieldCount - 1 ∉ [0] := by decide

/-! ## States that the laws admit -/

/-- Channel A on air at drive 0, with a command waiting. -/
def onAir : State :=
  { (chanA .on readyToGo).setResolver 0 { DriveResolver.reset with target := some 500, positions := some 0 } with
    pending := [.attn 0] }

/-- Channel A taken to INTERLOCKED by an opening. -/
def stopped : State :=
  { (chanA .interlocked card).setResolver 0 { DriveResolver.reset with target := some 500, positions := some 0 } with
    pending := [.attn 0] }

/-- The channels of a card whose one loaded channel is muted or at drive 0. -/
theorem channelLaws_of (s : State) (h0 : s.resolver 0 = { DriveResolver.reset with target := some 500, positions := some 0 })
    (h1 : s.arbiter = Arbiter.reset) (h2 : ∀ c, s.strike c = StrikeAccounting.reset)
    (h3 : ∀ c, c ≠ 0 → s.chan c = ChannelController.reset ∧ s.resolver c = DriveResolver.reset)
    (h4 : (s.chan 0).profile = some prof) (h5 : (s.chan 0).holdoff = none) (h6 : (s.chan 0).extended = false)
    (h7 : (s.chan 0).mute = !(s.chan 0).state.live)
    (h8 : (s.chan 0).state = .on ∨ (s.chan 0).state = .interlocked) : ChannelLaws s := by
  refine ⟨fun c => ?_, ?_⟩
  · by_cases hc : c = 0
    · subst hc
      have hp : ∀ p, (s.chan 0).profile = some p → p = prof := fun p h => by
        rw [h4] at h; exact (Option.some.inj h).symm
      rcases h8 with h8 | h8
      all_goals
        constructor
        case profiled => intro p h; rw [hp p h]; decide
        case counted => intro p h; simp [h2, StrikeAccounting.reset]
        case spared => intro p h _; rw [hp p h, h2]; decide
        case floored => intro p l _ h; rw [h0] at h; simp [DriveResolver.reset] at h
        all_goals
          first
          | exact h7
          | simp_all [StrikeAccounting.reset, DriveResolver.reset, Arbiter.reset, ChannelState.ramped,
              ChannelState.waiting, DriveResolver.resolved, DriveResolver.levels]
    · obtain ⟨hx, hr⟩ := h3 c hc
      constructor
      all_goals
        simp_all [StrikeAccounting.reset, DriveResolver.reset, Arbiter.reset, ChannelController.reset,
          ChannelState.live, ChannelState.ramped, ChannelState.waiting]
  · exact ⟨by rw [h1]; decide, fun _ => by rw [h1]; rfl⟩

theorem test_hyp_StepKeepsChannelLaws :
    ChannelLaws onAir ∧ (onAir.chan 0).state = .on ∧ ∃ t, step onAir = .next t :=
  ⟨channelLaws_of onAir (by decide) (by decide) (by decide) (by decide) (by decide) (by decide) (by decide) (by decide)
    (by decide), by decide, _, rfl⟩

theorem test_hyp_StepKeepsInterlockLaw :
    ChannelLaws stopped ∧ InterlockLaw stopped ∧ stopped.scanner.interlockClosed = false ∧ ∃ t, step stopped = .next t := by
  refine ⟨channelLaws_of stopped (by decide) (by decide) (by decide) (by decide) (by decide) (by decide) (by decide)
    (by decide) (by decide), ?_, by decide, _, rfl⟩
  intro _ c
  have hl : interlockEvents (stopped.link c) = [] := by revert c; decide
  have hs : (stopped.chan c).state = .interlocked ∨ (stopped.chan c).state = .off := by revert c; decide
  refine ⟨by rw [hl]; decide, fun _ => ?_⟩
  rcases hs with h | h
  · exact Or.inr (Or.inr h)
  · exact Or.inl h

/-- Channel D with its profile and position 23 in service, with a command waiting. -/
def served : State :=
  { (seat .active card).setResolver 3 { DriveResolver.reset with target := some 0, positions := some 300 } with
    pending := [.disablePosition] }

theorem test_hyp_StepKeepsPositionLaws : PositionLaws served ∧ ∃ t, step served = .next t := by
  refine ⟨⟨fun p => ?_, fun c => ?_⟩, _, rfl⟩
  · by_cases hp : p = 23
    · subst hp
      refine ⟨by decide, fun _ => ⟨by decide, prof, by decide, by decide, by decide⟩, fun h => ?_, by decide, by decide,
        by decide⟩
      rcases h with h | h <;> exact absurd h (by decide)
    · have hr : served.position p = PositionRecord.reset := by
        show look (put _ 23 _) p = _
        rw [look_put_ne _ _ _ _ hp]
        exact look_replicate _ _
      constructor <;> rw [hr] <;> simp [PositionRecord.reset]
  · intro p h
    by_cases hc : c = 3
    · subst hc
      have : p = prof := Option.some.inj (h.symm.trans (by decide))
      subst this
      show (served.resolver 3).positions = some (ceilingFor prof (activeCount served 3))
      decide
    · have : (served.chan c).profile = none := by
        have hk : served.chan c = ChannelController.reset := by
          show look (put _ 3 _) c = _
          rw [look_put_ne _ _ _ _ hc]
          exact look_replicate _ _
        rw [hk]; rfl
      rw [this] at h
      exact absurd h (by simp)

/-- The card with entry 41 in force on channel B, its join on the way, and a command waiting. -/
def watching : State :=
  { (card.setEntry 41 (entry41 .active 0)).setLink 1 { quiet with foldback := [.join 41] } with
    pending := [.foldbackJoin 1] }

theorem test_hyp_StepKeepsConditionLaws : EntryLaws watching ∧ FoldbackLaw watching ∧ ∃ t, step watching = .next t := by
  have he : ∀ i, i ≠ 41 → watching.entry i = LiveEntry.blank := fun i h => by
    show look (put _ 41 _) i = _
    rw [look_put_ne _ _ _ _ h]
    exact look_replicate _ _
  refine ⟨⟨fun i => ?_, by decide⟩, fun c i => ?_, _, rfl⟩
  · by_cases hi : i = 41
    · subst hi
      exact test_hyp_EntriesMoveBySide.2.2.1
    · rw [he i hi]
      exact test_hyp_EntriesMoveBySide.2.2.2.2.1
  · by_cases hi : i = 41
    · subst hi
      revert c
      decide
    · have hb : bearsOn .foldback c (watching.entry i) = false := by rw [he i hi]; rfl
      rw [hb]
      have hs : ∀ d : Channel, (watching.link d).foldback.foldl FoldbackDelivery.apply (watching.resolver d).activeSet = []
          ∨ (watching.link d).foldback.foldl FoldbackDelivery.apply (watching.resolver d).activeSet = [41] := by decide
      rcases hs c with h | h <;> rw [h] <;> simp [hi]

theorem test_hyp_StepKeepsMemoryCaptureAndStatusLaws :
    MemoryLaw { card with mem := [(0, 1), (65535, 255)] } ∧ CaptureLaw (buffered .ready)
    ∧ StatusLaw (card.setStatus ⟨1, 10, some []⟩) ∧ ∃ t, step { card with pending := [.statusRewriteEnd] } = .next t :=
  ⟨by unfold MemoryLaw; decide, ⟨by decide, by decide, by decide⟩, by unfold StatusLaw; decide, _, rfl⟩

theorem test_hyp_StepKeepsCardAtRestBeforeReady :
    RestLaw { State.reset with phase := .initializing, pending := [.attn 0] }
    ∧ ∃ t, step { State.reset with phase := .initializing, pending := [.attn 0] } = .next t :=
  ⟨restLaw_reset _ _, _, rfl⟩

end Sys2Proof.Tests
end

