-- ==== Sys2Proof/Proofs/TimeCounter.lean ====
section
/-! The millisecond time counter (R1): what a tick, the wrap and each way out of reset make of it. -/

namespace Sys2Proof.Machine

/-! ## The tick and the wrap -/

@[simp] theorem prune_now (c : Channel) (s : State) : (prune c s).now = s.now := rfl

/-- R77: the prune at the wrap leaves the counter at 0. -/
@[simp] theorem wrapCounter_now (s : State) : (wrapCounter s).now = 0 :=
  forEach_same State.now prune allChannels { s with now := 0 } (fun c _ t => prune_now c t)

theorem tick_of_now_eq_greatest {s : State} (h : s.now = 4294967295) : tick s = wrapCounter s := if_pos h

theorem tick_of_now_ne_greatest {s : State} (h : s.now ≠ 4294967295) : tick s = { s with now := s.now + 1 } := if_neg h

/-- R1: a tick adds one modulo 2^32, also at the wrap. -/
theorem tick_now (s : State) : (tick s).now = s.now + 1 := by
  by_cases h : s.now = 4294967295
  · rw [tick_of_now_eq_greatest h, wrapCounter_now, h]
    rfl
  · rw [tick_of_now_ne_greatest h]

theorem exec_timeCounterTick_of_running {s : State} (h : running s = true) :
    exec .timeCounterTick s = .next (tick s) := if_pos h

theorem exec_timeCounterWrap_of_running {s : State} (h : running s = true) (hnow : s.now = 4294967295) :
    exec .timeCounterWrap s = .next (wrapCounter s) := if_pos ⟨h, hnow⟩

/-! ## The ways out of reset -/

@[simp] theorem leaveReset_now (powerOn : Bool) (pins : Pins) (s : State) : (leaveReset powerOn pins s).now = 0 := rfl

/-- R159: a power-on reset with the backplane line released is left at once. -/
theorem exec_powerOnReset_released (pins : Pins) (s : State) :
    exec (.powerOnReset false pins) s = .next (leaveReset true pins s) := rfl

/-- R159: a controller reset by RESET_CTL is taken out of reset only, and is left at once. -/
theorem exec_controllerReset_resetCtlWrite {v : Word} {s : State} (pins : Pins) (hbit : v.getLsbD 0 = true)
    (hphase : s.phase = .initializing ∨ s.phase = .ready) :
    exec (.controllerReset (.resetCtlWrite v) pins) s = .next (leaveReset false pins s) := by
  have htaken : takeControllerReset (.resetCtlWrite v) pins s = leaveReset false pins s := by
    rcases hphase with h | h <;> simp [takeControllerReset, h]
  simp [exec, execControllerReset, hbit, htaken]

/-- R159: a card held in reset, of either kind, leaves it as the backplane line is released. -/
theorem exec_backplaneResetRelease_of_held {s : State} {powerOn : Bool} (pins : Pins) (h : s.phase = .held powerOn) :
    exec (.backplaneResetRelease pins) s = .next (leaveReset powerOn pins s) := by
  simp [exec, execBackplaneResetRelease, h]

/-- Settles O5: every command concerned answers `tick`, `wrapCounter` or `leaveReset`, whose counters are known. -/
theorem timeCounterCounts : Obligations.TimeCounterCounts := by
  intro s pins
  refine ⟨fun hrun => ?tickAddsOne, fun hrun hnow => ?wrapGivesZero, fun hrun hnow => ?tickFrame,
    ?powerOnReset, fun v hbit hphase => ?controllerReset, fun b hheld => ?release⟩
  case tickAddsOne => exact ⟨tick s, exec_timeCounterTick_of_running hrun, tick_now s⟩
  case wrapGivesZero => exact ⟨wrapCounter s, exec_timeCounterWrap_of_running hrun hnow, wrapCounter_now s⟩
  case tickFrame => rw [exec_timeCounterTick_of_running hrun, tick_of_now_ne_greatest hnow]
  case powerOnReset => exact ⟨_, exec_powerOnReset_released pins s, leaveReset_now true pins s⟩
  case controllerReset =>
    exact ⟨_, exec_controllerReset_resetCtlWrite pins hbit hphase, leaveReset_now false pins s⟩
  case release => exact ⟨_, exec_backplaneResetRelease_of_held pins hheld, leaveReset_now b pins s⟩

end Sys2Proof.Machine
end

/-! The sides of ABOVE and BELOW entries (R21), and what can move an ACTIVE entry whose clear side no count reaches. -/

namespace Sys2Proof.Machine

/-! ## Operations that leave the Condition Evaluator as it is

One lemma for each operation, in the order of the model's blocks; each is read off the operation's own branches or its
frame. -/

theorem forEach_evaluator {α : Type} {f : α → State → State} (l : List α) (s : State)
    (h : ∀ x t, (f x t).evaluator = t.evaluator) : (forEach l f s).evaluator = s.evaluator :=
  forEach_same State.evaluator f l s (fun x _ t => h x t)

/-! Records and deliveries -/

@[simp] theorem sendRecord_evaluator (sender : Sender) (after : Option Stamp) (awaits : Bool) (r : Record) (s : State) :
    (sendRecord sender after awaits r s).evaluator = s.evaluator := rfl

@[simp] theorem sendChannel_evaluator (c : Channel) (after : Option Stamp) (r : Record) (s : State) :
    (sendChannel c after r s).evaluator = s.evaluator := rfl

@[simp] theorem recordChange_evaluator (c : Channel) (after : Option Stamp) (s : State) :
    (recordChange c after s).evaluator = s.evaluator := rfl

@[simp] theorem deliverScanner_evaluator (c : Channel) (e : ScannerEvent) (s : State) :
    (deliverScanner c e s).evaluator = s.evaluator := rfl

@[simp] theorem deliverPreemption_evaluator (c : Channel) (s : State) :
    (deliverPreemption c s).evaluator = s.evaluator := rfl

@[simp] theorem reportStep_evaluator (c : Channel) (s : State) : (reportStep c s).evaluator = s.evaluator := rfl

@[simp] theorem sendCount_evaluator (c : Channel) (s : State) : (sendCount c s).evaluator = s.evaluator := rfl

/-! The Capture Unit, the Journal Writer and the Status Writer -/

@[simp] theorem writeCaptureHeader_evaluator (b : BufferIx) (s : State) :
    (writeCaptureHeader b s).evaluator = s.evaluator := rfl

@[simp] theorem changeBuffer_evaluator (b : BufferIx) (x : CaptureBuffer) (s : State) :
    (changeBuffer b x s).evaluator = s.evaluator := rfl

@[simp] theorem takeTrigger_evaluator (o : TriggerOutcome) (c : Channel) (s : State) :
    (takeTrigger o c s).evaluator = s.evaluator := by
  cases o <;> rfl

@[simp] theorem finishFill_evaluator (s : State) : (finishFill s).evaluator = s.evaluator := by
  rw [(finishFill_frame s).1]

@[simp] theorem fillCapture_evaluator (j : CapturedIx) (value : Nat) (s : State) :
    (fillCapture j value s).evaluator = s.evaluator := by
  unfold fillCapture
  cases findBuffer .filling s with
  | none => rfl
  | some b => by_cases h : look s.captures.postCounts j < 64 <;> simp [h]

@[simp] theorem holdCapture_evaluator (a : Arguments) (s : State) : (holdCapture a s).1.evaluator = s.evaluator := by
  unfold holdCapture
  cases captureRefusal a s with
  | inr code => rfl
  | inl b => cases h : (s.buffer b).state <;> simp [h]

@[simp] theorem releaseCapture_evaluator (a : Arguments) (s : State) :
    (releaseCapture a s).1.evaluator = s.evaluator := by
  unfold releaseCapture
  cases captureRefusal a s <;> rfl

@[simp] theorem numberRecord_evaluator (r : Record) (s : State) : (numberRecord r s).evaluator = s.evaluator := by
  rw [numberRecord_frame]

@[simp] theorem numberHeldRecords_evaluator (s : State) : (numberHeldRecords s).evaluator = s.evaluator :=
  forEach_evaluator _ _ (fun w t => numberRecord_evaluator w.record t)

@[simp] theorem copyField_evaluator (k : Nat) (s : State) : (copyField k s).evaluator = s.evaluator := by
  unfold copyField
  split
  · split <;> rfl
  · rfl

@[simp] theorem bumpUpdateCount_evaluator (s : State) : (bumpUpdateCount s).evaluator = s.evaluator := rfl

/-! The Arbiter and Strike Accounting -/

@[simp] theorem setState_evaluator (c : Channel) (st : ChannelState) (s : State) :
    (setState c st s).evaluator = s.evaluator := rfl

@[simp] theorem joinTail_evaluator (c : Channel) (s : State) : (joinTail c s).evaluator = s.evaluator := by
  simp [joinTail_eq]

@[simp] theorem joinHead_evaluator (c : Channel) (s : State) : (joinHead c s).evaluator = s.evaluator := rfl

@[simp] theorem releaseEngine_evaluator (c : Channel) (s : State) : (releaseEngine c s).evaluator = s.evaluator := by
  simp [releaseEngine_eq]

@[simp] theorem offerGrant_evaluator (s : State) : (offerGrant s).evaluator = s.evaluator := by
  simp [offerGrant_eq]

@[simp] theorem holdEngine_evaluator (c : Channel) (s : State) : (holdEngine c s).evaluator = s.evaluator := rfl

@[simp] theorem cut_evaluator (c : Channel) (s : State) : (cut c s).evaluator = s.evaluator := by
  simp [cut_eq]

@[simp] theorem dropRamp_evaluator (c : Channel) (s : State) : (dropRamp c s).evaluator = s.evaluator := rfl

@[simp] theorem prune_evaluator (c : Channel) (s : State) : (prune c s).evaluator = s.evaluator := rfl

@[simp] theorem appendStrike_evaluator (c : Channel) (s : State) : (appendStrike c s).evaluator = s.evaluator := rfl

@[simp] theorem endConfirmation_evaluator (c : Channel) (s : State) :
    (endConfirmation c s).evaluator = s.evaluator := by
  rw [endConfirmation_eq]
  rfl

@[simp] theorem verdict_evaluator (c : Channel) (extended : Bool) (after : Option Stamp) (s : State) :
    (verdict c extended after s).evaluator = s.evaluator := by
  rw [(verdict_frame c extended after s).1]

@[simp] theorem acceptAnswer_evaluator (c : Channel) (s : State) : (acceptAnswer c s).evaluator = s.evaluator := by
  simp [acceptAnswer]

@[simp] theorem declineAnswer_evaluator (c : Channel) (s : State) : (declineAnswer c s).evaluator = s.evaluator := by
  simp [declineAnswer]

@[simp] theorem confirmRestrike_evaluator (a : Arguments) (s : State) :
    (confirmRestrike a s).1.evaluator = s.evaluator := by
  unfold confirmRestrike
  cases index 4 a.word1 with
  | none => rfl
  | some c => simp only []; split_ifs <;> simp

@[simp] theorem wrapCounter_evaluator (s : State) : (wrapCounter s).evaluator = s.evaluator :=
  forEach_evaluator allChannels { s with now := 0 } prune_evaluator

@[simp] theorem tick_evaluator (s : State) : (tick s).evaluator = s.evaluator := by
  unfold tick
  split <;> simp

/-! The Drive Resolvers -/

@[simp] theorem rampStep_evaluator (c : Channel) (s : State) : (rampStep c s).evaluator = s.evaluator := rfl

@[simp] theorem foldbackStep_evaluator (c : Channel) (s : State) : (foldbackStep c s).evaluator = s.evaluator := by
  unfold foldbackStep
  simp only []
  split <;> rfl

@[simp] theorem foldbackWork_evaluator (c : Channel) (s : State) : (foldbackWork c s).evaluator = s.evaluator := by
  unfold foldbackWork
  split_ifs
  · rfl
  · simp
  · cases (s.resolver c).foldback <;> rfl

@[simp] theorem raise_evaluator (c : Channel) (s : State) : (raise c s).evaluator = s.evaluator := by
  unfold raise
  split <;> rfl

@[simp] theorem completionTest_evaluator (c : Channel) (s : State) :
    (completionTest c s).evaluator = s.evaluator := by
  simp [completionTest_eq]

@[simp] theorem markWork_evaluator (c : Channel) (s : State) : (markWork c s).evaluator = s.evaluator := by
  unfold markWork
  simp only []
  split_ifs <;> simp

@[simp] theorem changeEntry_evaluator (c : Channel) (r : DriveResolver) (s : State) :
    (changeEntry c r s).evaluator = s.evaluator := by
  unfold changeEntry
  split <;> simp

@[simp] theorem setTarget_evaluator (a : Arguments) (s : State) : (setTarget a s).1.evaluator = s.evaluator := by
  unfold setTarget
  cases index 4 a.word1 with
  | none => rfl
  | some c => simp only []; split_ifs <;> simp

/-! The Channel Controllers -/

@[simp] theorem leaveAir_evaluator (c : Channel) (s : State) : (leaveAir c s).evaluator = s.evaluator := by
  simp [leaveAir_eq]

@[simp] theorem stopHoldoff_evaluator (c : Channel) (s : State) : (stopHoldoff c s).evaluator = s.evaluator := rfl

@[simp] theorem depart_evaluator (c : Channel) (s : State) : (depart c s).evaluator = s.evaluator := by
  simp [depart]

@[simp] theorem strikeVerdict_evaluator (c : Channel) (s : State) : (strikeVerdict c s).evaluator = s.evaluator := by
  simp [strikeVerdict_eq]

@[simp] theorem liveStrike_evaluator (c : Channel) (cause : Cause) (after : Option Stamp) (s : State) :
    (liveStrike c cause after s).evaluator = s.evaluator := by
  simp [liveStrike]

@[simp] theorem mutedStrike_evaluator (c : Channel) (cause : Cause) (after : Option Stamp) (s : State) :
    (mutedStrike c cause after s).evaluator = s.evaluator := rfl

@[simp] theorem takeStrike_evaluator (c : Channel) (cause : Cause) (after : Option Stamp) (s : State) :
    (takeStrike c cause after s).evaluator = s.evaluator := by
  unfold takeStrike
  cases (s.chan c).state <;> simp

@[simp] theorem endHoldoff_evaluator (c : Channel) (after : Option Stamp) (s : State) :
    (endHoldoff c after s).evaluator = s.evaluator := by
  simp [endHoldoff]

@[simp] theorem extendHoldoff_evaluator (c : Channel) (s : State) : (extendHoldoff c s).evaluator = s.evaluator := rfl

@[simp] theorem askAgain_evaluator (c : Channel) (after : Option Stamp) (s : State) :
    (askAgain c after s).evaluator = s.evaluator := by
  unfold askAgain
  split <;> simp

@[simp] theorem takeLockout_evaluator (c : Channel) (e : EntryIx) (capture : Bool) (after : Option Stamp) (s : State) :
    (takeLockout c e capture after s).evaluator = s.evaluator := by
  unfold takeLockout
  cases (s.chan c).state <;> simp

@[simp] theorem takeOpened_evaluator (c : Channel) (after : Option Stamp) (s : State) :
    (takeOpened c after s).evaluator = s.evaluator := by
  unfold takeOpened
  cases (s.chan c).state <;> simp

@[simp] theorem takeClosed_evaluator (c : Channel) (after : Option Stamp) (s : State) :
    (takeClosed c after s).evaluator = s.evaluator := by
  unfold takeClosed
  split <;> simp

@[simp] theorem takeOn_evaluator (c : Channel) (target : Nat) (s : State) :
    (takeOn c target s).evaluator = s.evaluator := by
  simp [takeOn]

@[simp] theorem channelOn_evaluator (a : Arguments) (s : State) : (channelOn a s).1.evaluator = s.evaluator := by
  unfold channelOn
  cases index 4 a.word1 with
  | none => rfl
  | some c =>
    simp only []
    split
    · rfl
    · cases channelOnRefusal c s <;> simp

@[simp] theorem enterOff_evaluator (c : Channel) (s : State) : (enterOff c s).evaluator = s.evaluator := rfl

@[simp] theorem takeOff_evaluator (c : Channel) (s : State) : (takeOff c s).evaluator = s.evaluator := by
  simp [takeOff]

@[simp] theorem channelOff_evaluator (a : Arguments) (s : State) : (channelOff a s).1.evaluator = s.evaluator := by
  unfold channelOff
  cases index 4 a.word1 with
  | none => rfl
  | some c => cases h : (s.chan c).state <;> simp [h]

@[simp] theorem releaseLockout_evaluator (a : Arguments) (s : State) :
    (releaseLockout a s).1.evaluator = s.evaluator := by
  unfold releaseLockout
  cases index 4 a.word1 with
  | none => rfl
  | some c => simp only []; split_ifs <;> simp

/-! The Position Monitor -/

@[simp] theorem moveTo_evaluator (p : PositionIx) (st : PositionState) (s : State) :
    (moveTo p st s).evaluator = s.evaluator := rfl

@[simp] theorem recordPosition_evaluator (p : PositionIx) (after : Option Stamp) (condition : Option EntryIx)
    (value : Option Nat) (s : State) : (recordPosition p after condition value s).evaluator = s.evaluator := rfl

@[simp] theorem moveCounted_evaluator (p : PositionIx) (st : PositionState) (s : State) :
    (moveCounted p st s).evaluator = s.evaluator := by
  rw [moveCounted_frame]

@[simp] theorem loseModule_evaluator (p : PositionIx) (s : State) : (loseModule p s).evaluator = s.evaluator := by
  simp [loseModule]

@[simp] theorem takePresence_evaluator (p : PositionIx) (active : Bool) (s : State) :
    (takePresence p active s).evaluator = s.evaluator := by
  unfold takePresence
  simp only []
  split <;> simp

@[simp] theorem startRead_evaluator (p : PositionIx) (s : State) : (startRead p s).evaluator = s.evaluator := rfl

@[simp] theorem endRead_evaluator (p : PositionIx) (code : Byte) (s : State) :
    (endRead p code s).evaluator = s.evaluator := rfl

@[simp] theorem enablePosition_evaluator (a : Arguments) (s : State) :
    (enablePosition a s).1.evaluator = s.evaluator := by
  unfold enablePosition
  cases index 24 a.word1 with
  | none => rfl
  | some p => cases h : enableRefusal p s <;> simp [h]

@[simp] theorem disablePosition_evaluator (a : Arguments) (s : State) :
    (disablePosition a s).1.evaluator = s.evaluator := by
  unfold disablePosition
  cases index 24 a.word1 with
  | none => rfl
  | some p => cases h : (s.position p).state <;> simp [h]

@[simp] theorem takeTrip_evaluator (p : PositionIx) (e : EntryIx) (after : Option Stamp) (s : State) :
    (takeTrip p e after s).evaluator = s.evaluator := by
  unfold takeTrip
  cases (s.position p).state <;> simp

@[simp] theorem recheckPosition_evaluator (c : Channel) (f : Profile) (k : Fin 6) (s : State) :
    (recheckPosition c f k s).evaluator = s.evaluator := by
  unfold recheckPosition
  simp only []
  split <;> simp

@[simp] theorem installProfile_evaluator (c : Channel) (f : Profile) (s : State) :
    (installProfile c f s).evaluator = s.evaluator := by
  simp [installProfile, recheck, forEach_evaluator (List.finRange 6) _ (recheckPosition_evaluator c f)]

@[simp] theorem loadProfile_evaluator (a : Arguments) (s : State) : (loadProfile a s).1.evaluator = s.evaluator := by
  unfold loadProfile
  cases index 4 a.word1 with
  | none => rfl
  | some c =>
    simp only []
    split
    · rfl
    · cases checkProfile (readProfile s.mem c) <;> simp

/-! The Input Scanner and the Frame Mark Monitors -/

@[simp] theorem captureArrival_evaluator (p : Point) (count : Nat) (s : State) :
    (captureArrival p count s).evaluator = s.evaluator := by
  unfold captureArrival
  cases capturedIndex p with
  | none => rfl
  | some j => exact fillCapture_evaluator j count (pushRing j count s)

@[simp] theorem changeInterlock_evaluator (closed : Bool) (s : State) :
    (changeInterlock closed s).evaluator = s.evaluator :=
  forEach_evaluator allChannels _ (fun c t => deliverScanner_evaluator c (if closed then .closed else .opened) t)

@[simp] theorem setPresent_evaluator (c : Channel) (present : Bool) (s : State) :
    (setPresent c present s).evaluator = s.evaluator := by
  unfold setPresent
  split <;> rfl

@[simp] theorem passMark_evaluator (c : Channel) (s : State) : (passMark c s).evaluator = s.evaluator := rfl

@[simp] theorem countMark_evaluator (c : Channel) (s : State) : (countMark c s).evaluator = s.evaluator := rfl

/-! The Request Handler and initialization -/

@[simp] theorem writeConfirmation_evaluator (c : Channel) (s : State) :
    (writeConfirmation c s).evaluator = s.evaluator := rfl

@[simp] theorem writeArea_evaluator (area : InitArea) (s : State) : (writeArea area s).evaluator = s.evaluator := by
  cases area with
  | slots => exact forEach_evaluator (List.finRange 16) s (fun k t => State.write_evaluator t (slotAddress k) _)
  | confirmations => exact forEach_evaluator allChannels s writeConfirmation_evaluator
  | captures => exact forEach_evaluator (List.finRange 4) _ writeCaptureHeader_evaluator
  | release | journal | identity => rfl

@[simp] theorem initializeArea_evaluator (area : InitArea) (s : State) :
    (initializeArea area s).evaluator = s.evaluator := by
  unfold initializeArea
  split <;> simp

@[simp] theorem finishAreas_evaluator (s : State) : (finishAreas s).evaluator = s.evaluator := by
  simp [finishAreas, forEach_evaluator [.journal, .confirmations, .captures, .identity] s initializeArea_evaluator]

@[simp] theorem writeSlotState_evaluator (k : SlotIx) (value : Nat) (s : State) :
    (writeSlotState k value s).evaluator = s.evaluator := rfl

@[simp] theorem completeSlot_evaluator (k : SlotIx) (r : Reply) (s : State) :
    (completeSlot k r s).evaluator = s.evaluator := by
  rw [completeSlot_frame]

/-- R152: serving a request changes of the Evaluator what the request's work changes. -/
theorem serve_evaluator (k : SlotIx) {work : Arguments → State → State × Reply} (s : State)
    (h : ∀ a t, (work a t).1.evaluator = t.evaluator) : (serve k work s).evaluator = s.evaluator := by
  simp [serve, h]

theorem visitFor_evaluator (kind : RequestKind) {work : Arguments → State → State × Reply} (s : State)
    (h : ∀ a t, (work a t).1.evaluator = t.evaluator) : (visitFor kind work s).evaluator = s.evaluator := by
  unfold visitFor
  cases offered (some kind) s with
  | none => rfl
  | some k => exact serve_evaluator k s h

/-! ## Traffic and a load that begins leave the live entries as they are -/

@[simp] theorem readDrafts_entries (upTo : Nat) (s : State) :
    (readDrafts upTo s).evaluator.entries = s.evaluator.entries := by
  unfold readDrafts
  cases s.evaluator.load <;> rfl

@[simp] theorem takeTraffic_entries (item : Traffic) (s : State) :
    (takeTraffic item s).evaluator.entries = s.evaluator.entries := by
  cases item <;> simp [takeTraffic]

@[simp] theorem takeLoad_entries (k : SlotIx) (s : State) :
    (takeLoad k s).evaluator.entries = s.evaluator.entries := rfl

/-! ## Commands that leave the live entries as they are -/

/-- The outcome holds the live entries of `s`, if it goes on. -/
def KeepsEntries (s : State) : Host.Outcome State Fault Refusal → Prop
  | .next t => t.evaluator.entries = s.evaluator.entries
  | .fault _ | .refused _ => True

@[simp] theorem keepsEntries_next (s t : State) :
    KeepsEntries s (.next t) ↔ t.evaluator.entries = s.evaluator.entries := Iff.rfl

theorem keepsEntries_of_evaluator {s t : State} (h : t.evaluator = s.evaluator) : KeepsEntries s (.next t) :=
  congrArg Evaluator.entries h

theorem KeepsEntries.entry {s t : State} {o : Host.Outcome State Fault Refusal} (h : KeepsEntries s o)
    (ht : o = .next t) (i : EntryIx) : t.entry i = s.entry i := by
  subst ht
  exact congrArg (look · i) h

/-- Commands with a test: the outcome keeps the entries when both branches do. -/
theorem KeepsEntries.ite {s : State} {o o' : Host.Outcome State Fault Refusal} (p : Prop) [Decidable p]
    (h : KeepsEntries s o) (h' : KeepsEntries s o') : KeepsEntries s (if p then o else o') := by
  split
  · exact h
  · exact h'

/-- Commands with one test: the outcome keeps the entries when the change behind the test does. -/
theorem keepsEntries_ite_next (p : Prop) [Decidable p] {s t : State} (h : t.evaluator = s.evaluator) :
    KeepsEntries s (if p then .next t else .next s) :=
  .ite p (keepsEntries_of_evaluator h) rfl

/-! Registers, memory and sweeps -/

theorem execIrqEnableWrite_keepsEntries (value : Word) (s : State) : KeepsEntries s (execIrqEnableWrite value s) :=
  keepsEntries_ite_next _ rfl

theorem execRegisterWriteIgnored_keepsEntries (reg : QuietRegister) (value : Word) (s : State) :
    KeepsEntries s (execRegisterWriteIgnored reg value s) :=
  rfl

theorem execJournalReleaseWrite_keepsEntries (w : ReleaseWrite) (s : State) :
    KeepsEntries s (execJournalReleaseWrite w s) :=
  KeepsEntries.ite _ rfl rfl

theorem execSlotStateWrite_keepsEntries (before : List Traffic) (slot : SlotIx) (value : Word) (s : State) :
    KeepsEntries s (execSlotStateWrite before slot value s) :=
  KeepsEntries.ite _ rfl
    (forEach_same (·.evaluator.entries) takeTraffic before s (fun item _ t => takeTraffic_entries item t))

theorem execAttn_keepsEntries (value : Word) (s : State) : KeepsEntries s (execAttn value s) := by
  unfold execAttn
  split <;> rfl

theorem execSweepEnd_keepsEntries (s : State) : KeepsEntries s (execSweepEnd s) := by
  unfold execSweepEnd
  split
  · exact keepsEntries_ite_next _ rfl
  · rfl

theorem execInitializationEnd_keepsEntries (s : State) : KeepsEntries s (execInitializationEnd s) := by
  unfold execInitializationEnd
  split <;> simp

/-! Requests -/

theorem keepsEntries_visitFor (kind : RequestKind) {work : Arguments → State → State × Reply} (s : State)
    (h : ∀ a t, (work a t).1.evaluator = t.evaluator) : KeepsEntries s (.next (visitFor kind work s)) :=
  keepsEntries_of_evaluator (visitFor_evaluator kind s h)

theorem execBadKind_keepsEntries (s : State) : KeepsEntries s (execBadKind s) := by
  unfold execBadKind
  cases offered none s with
  | none => rfl
  | some k => exact keepsEntries_of_evaluator (serve_evaluator k s (fun _ _ => rfl))

theorem execLoadConditions_keepsEntries (s : State) : KeepsEntries s (execLoadConditions s) := by
  unfold execLoadConditions
  split <;> simp

/-! Lines and marks -/

theorem execArcLineAssertion_keepsEntries (line : ArcLine) (spell : Nat) (s : State) :
    KeepsEntries s (execArcLineAssertion line spell s) :=
  keepsEntries_ite_next _ (forEach_evaluator _ _ (fun c t => deliverScanner_evaluator c (.strike line) t))

theorem execArcLineDeassertion_keepsEntries (line : ArcLine) (spell : Nat) (s : State) :
    KeepsEntries s (execArcLineDeassertion line spell s) :=
  keepsEntries_ite_next _ (forEach_evaluator _ _ (fun c t => deliverScanner_evaluator c (.arcCleared line) t))

theorem execInterlockLoopOpening_keepsEntries (spell : Nat) (s : State) :
    KeepsEntries s (execInterlockLoopOpening spell s) := by
  unfold execInterlockLoopOpening
  split_ifs <;> simp

theorem execInterlockLoopClosing_keepsEntries (s : State) : KeepsEntries s (execInterlockLoopClosing s) :=
  keepsEntries_ite_next _ rfl

theorem execClosureTimerExpiry_keepsEntries (s : State) : KeepsEntries s (execClosureTimerExpiry s) := by
  unfold execClosureTimerExpiry
  split
  · rfl
  · exact keepsEntries_ite_next _ (changeInterlock_evaluator true s)

theorem execRealMark_keepsEntries (c : Channel) (spell : Nat) (s : State) :
    KeepsEntries s (execRealMark c spell s) :=
  keepsEntries_ite_next _ (by simp)

theorem execMarkIntervalExpiry_keepsEntries (c : Channel) (s : State) :
    KeepsEntries s (execMarkIntervalExpiry c s) :=
  keepsEntries_ite_next _ (by simp)

/-! The drive and the engine -/

theorem execFrameMark_keepsEntries (c : Channel) (s : State) : KeepsEntries s (execFrameMark c s) := by
  unfold execFrameMark
  split <;> simp

theorem execFoldbackJoin_keepsEntries (c : Channel) (s : State) : KeepsEntries s (execFoldbackJoin c s) := by
  unfold execFoldbackJoin
  split <;> rfl

theorem execFoldbackLeave_keepsEntries (c : Channel) (s : State) : KeepsEntries s (execFoldbackLeave c s) := by
  unfold execFoldbackLeave
  split <;> rfl

theorem execPositionCount_keepsEntries (c : Channel) (s : State) : KeepsEntries s (execPositionCount c s) := by
  unfold execPositionCount
  split
  · rfl
  · simp only []
    split <;> simp

theorem execStepReport_keepsEntries (c : Channel) (s : State) : KeepsEntries s (execStepReport c s) := by
  unfold execStepReport
  split
  · rfl
  · simp only []
    split <;> simp

theorem execGrantTaken_keepsEntries (c : Channel) (s : State) : KeepsEntries s (execGrantTaken c s) := by
  unfold execGrantTaken
  split
  · split <;> simp
  · rfl

theorem execRampCompletion_keepsEntries (c : Channel) (s : State) : KeepsEntries s (execRampCompletion c s) := by
  unfold execRampCompletion
  split
  · rfl
  · simp only []
    split <;> simp

theorem execPreemption_keepsEntries (c : Channel) (s : State) : KeepsEntries s (execPreemption c s) := by
  unfold execPreemption
  split
  · rfl
  · simp only []
    split
    · split <;> simp
    all_goals simp

/-! Strikes, lockouts, the interlock and holdoff -/

theorem execStrike_keepsEntries (c : Channel) (link : StrikeLink) (s : State) :
    KeepsEntries s (execStrike c link s) := by
  unfold execStrike
  split <;> simp

theorem execLockoutAction_keepsEntries (c : Channel) (s : State) : KeepsEntries s (execLockoutAction c s) := by
  unfold execLockoutAction
  split <;> simp

theorem execConditionClearedEvent_keepsEntries (c : Channel) (s : State) :
    KeepsEntries s (execConditionClearedEvent c s) := by
  unfold execConditionClearedEvent
  split <;> simp

theorem execArcCleared_keepsEntries (c : Channel) (s : State) : KeepsEntries s (execArcCleared c s) := by
  unfold execArcCleared
  split <;> simp

theorem execHoldoffExpiry_keepsEntries (c : Channel) (s : State) : KeepsEntries s (execHoldoffExpiry c s) := by
  unfold execHoldoffExpiry
  split
  · rfl
  · split_ifs <;> simp

theorem execConfirmationExpiry_keepsEntries (c : Channel) (s : State) :
    KeepsEntries s (execConfirmationExpiry c s) := by
  unfold execConfirmationExpiry
  split
  · rfl
  · exact keepsEntries_ite_next _ (by simp)

theorem execInterlockOpenedEvent_keepsEntries (c : Channel) (s : State) :
    KeepsEntries s (execInterlockOpenedEvent c s) := by
  unfold execInterlockOpenedEvent
  split <;> simp

theorem execInterlockClosedEvent_keepsEntries (c : Channel) (s : State) :
    KeepsEntries s (execInterlockClosedEvent c s) := by
  unfold execInterlockClosedEvent
  split <;> simp

/-! Time, positions, captures, the journal and the status block -/

theorem execTimeCounterTick_keepsEntries (s : State) : KeepsEntries s (execTimeCounterTick s) :=
  keepsEntries_ite_next _ (tick_evaluator s)

theorem execTimeCounterWrap_keepsEntries (s : State) : KeepsEntries s (execTimeCounterWrap s) :=
  keepsEntries_ite_next _ (wrapCounter_evaluator s)

theorem execPresenceChange_keepsEntries (p : PositionIx) (active : Bool) (spell : Nat) (s : State) :
    KeepsEntries s (execPresenceChange p active spell s) :=
  keepsEntries_ite_next _ (takePresence_evaluator p active s)

theorem execPresenceTimerEnd_keepsEntries (p : PositionIx) (s : State) : KeepsEntries s (execPresenceTimerEnd p s) := by
  unfold execPresenceTimerEnd
  split
  · rfl
  · exact keepsEntries_ite_next _ (startRead_evaluator p s)

theorem execIdentityReadEnd_keepsEntries (p : PositionIx) (code : Option Byte) (s : State) :
    KeepsEntries s (execIdentityReadEnd p code s) := by
  unfold execIdentityReadEnd
  split
  · rfl
  · exact keepsEntries_ite_next _ (endRead_evaluator p _ s)

theorem execPositionTrip_keepsEntries (p : PositionIx) (e : EntryIx) (s : State) :
    KeepsEntries s (execPositionTrip p e s) := by
  unfold execPositionTrip
  split <;> simp

theorem execCaptureTrigger_keepsEntries (c : Channel) (s : State) : KeepsEntries s (execCaptureTrigger c s) :=
  keepsEntries_ite_next _ (takeTrigger_evaluator _ c s)

theorem execJournalRecord_keepsEntries (sender : Sender) (s : State) : KeepsEntries s (execJournalRecord sender s) := by
  unfold execJournalRecord
  split
  · exact keepsEntries_ite_next _ (numberRecord_evaluator _ _)
  · rfl

theorem execStatusRewrite_keepsEntries (fields : List Nat) (s : State) :
    KeepsEntries s (execStatusRewrite fields s) := by
  unfold execStatusRewrite
  split
  · exact keepsEntries_of_evaluator (forEach_evaluator fields s copyField_evaluator)
  · exact keepsEntries_ite_next _ (forEach_evaluator fields _ copyField_evaluator)
  · rfl

theorem execStatusRewriteEnd_keepsEntries (s : State) : KeepsEntries s (execStatusRewriteEnd s) := by
  unfold execStatusRewriteEnd
  split
  · rfl
  · simp [forEach_evaluator _ s copyField_evaluator]

/-! ## Every command but those that may end ACTIVE -/

/-- The commands after which an ACTIVE entry need not stand as it stood, sample arrivals apart: CLEAR_CONDITION (also
as a slot visit), a load's end, the resets and the loss of supply. -/
def MayEndActive (cmd : Instr) : Prop :=
  cmd = .clearCondition ∨ cmd = .slotVisit ∨ (∃ o, cmd = .loadEnd o) ∨ (∃ b q, cmd = .powerOnReset b q)
    ∨ (∃ x q, cmd = .controllerReset x q) ∨ (∃ q, cmd = .backplaneResetRelease q) ∨ cmd = .supplyLoss

/-- Every other command leaves the live entries as they are. -/
theorem exec_keepsEntries_or : ∀ (cmd : Instr) (s : State),
    KeepsEntries s (exec cmd s) ∨ (∃ p input order, cmd = .sampleArrival p input order) ∨ MayEndActive cmd
  | .irqEnableWrite value, s => .inl (execIrqEnableWrite_keepsEntries value s)
  | .registerWriteIgnored reg value, s => .inl (execRegisterWriteIgnored_keepsEntries reg value s)
  | .journalReleaseWrite w, s => .inl (execJournalReleaseWrite_keepsEntries w s)
  | .slotStateWrite before slot value, s => .inl (execSlotStateWrite_keepsEntries before slot value s)
  | .attn value, s => .inl (execAttn_keepsEntries value s)
  | .sweepEnd, s => .inl (execSweepEnd_keepsEntries s)
  | .initializationEnd, s => .inl (execInitializationEnd_keepsEntries s)
  | .badKind, s => .inl (execBadKind_keepsEntries s)
  | .loadConditions, s => .inl (execLoadConditions_keepsEntries s)
  | .arcLineAssertion line spell, s => .inl (execArcLineAssertion_keepsEntries line spell s)
  | .arcLineDeassertion line spell, s => .inl (execArcLineDeassertion_keepsEntries line spell s)
  | .interlockLoopOpening spell, s => .inl (execInterlockLoopOpening_keepsEntries spell s)
  | .interlockLoopClosing, s => .inl (execInterlockLoopClosing_keepsEntries s)
  | .closureTimerExpiry, s => .inl (execClosureTimerExpiry_keepsEntries s)
  | .realMark c spell, s => .inl (execRealMark_keepsEntries c spell s)
  | .markIntervalExpiry c, s => .inl (execMarkIntervalExpiry_keepsEntries c s)
  | .frameMark c, s => .inl (execFrameMark_keepsEntries c s)
  | .foldbackJoin c, s => .inl (execFoldbackJoin_keepsEntries c s)
  | .foldbackLeave c, s => .inl (execFoldbackLeave_keepsEntries c s)
  | .positionCount c, s => .inl (execPositionCount_keepsEntries c s)
  | .stepReport c, s => .inl (execStepReport_keepsEntries c s)
  | .grantTaken c, s => .inl (execGrantTaken_keepsEntries c s)
  | .rampCompletion c, s => .inl (execRampCompletion_keepsEntries c s)
  | .preemption c, s => .inl (execPreemption_keepsEntries c s)
  | .strike c link, s => .inl (execStrike_keepsEntries c link s)
  | .lockoutAction c, s => .inl (execLockoutAction_keepsEntries c s)
  | .conditionClearedEvent c, s => .inl (execConditionClearedEvent_keepsEntries c s)
  | .arcCleared c, s => .inl (execArcCleared_keepsEntries c s)
  | .holdoffExpiry c, s => .inl (execHoldoffExpiry_keepsEntries c s)
  | .confirmationExpiry c, s => .inl (execConfirmationExpiry_keepsEntries c s)
  | .interlockOpenedEvent c, s => .inl (execInterlockOpenedEvent_keepsEntries c s)
  | .interlockClosedEvent c, s => .inl (execInterlockClosedEvent_keepsEntries c s)
  | .timeCounterTick, s => .inl (execTimeCounterTick_keepsEntries s)
  | .timeCounterWrap, s => .inl (execTimeCounterWrap_keepsEntries s)
  | .presenceChange p active spell, s => .inl (execPresenceChange_keepsEntries p active spell s)
  | .presenceTimerEnd p, s => .inl (execPresenceTimerEnd_keepsEntries p s)
  | .identityReadEnd p code, s => .inl (execIdentityReadEnd_keepsEntries p code s)
  | .positionTrip p e, s => .inl (execPositionTrip_keepsEntries p e s)
  | .captureTrigger c, s => .inl (execCaptureTrigger_keepsEntries c s)
  | .journalRecord sender, s => .inl (execJournalRecord_keepsEntries sender s)
  | .statusRewrite fields, s => .inl (execStatusRewrite_keepsEntries fields s)
  | .statusRewriteEnd, s => .inl (execStatusRewriteEnd_keepsEntries s)
  | .loadProfile, s => .inl (keepsEntries_visitFor _ s loadProfile_evaluator)
  | .channelOn, s => .inl (keepsEntries_visitFor _ s channelOn_evaluator)
  | .channelOff, s => .inl (keepsEntries_visitFor _ s channelOff_evaluator)
  | .setTarget, s => .inl (keepsEntries_visitFor _ s setTarget_evaluator)
  | .confirmRestrike, s => .inl (keepsEntries_visitFor _ s confirmRestrike_evaluator)
  | .releaseLockout, s => .inl (keepsEntries_visitFor _ s releaseLockout_evaluator)
  | .enablePosition, s => .inl (keepsEntries_visitFor _ s enablePosition_evaluator)
  | .disablePosition, s => .inl (keepsEntries_visitFor _ s disablePosition_evaluator)
  | .holdCapture, s => .inl (keepsEntries_visitFor _ s holdCapture_evaluator)
  | .releaseCapture, s => .inl (keepsEntries_visitFor _ s releaseCapture_evaluator)
  | .sampleArrival p input order, _ => .inr (.inl ⟨p, input, order, rfl⟩)
  | .clearCondition, _ | .slotVisit, _ | .loadEnd _, _ | .powerOnReset _ _, _ | .controllerReset _ _, _
  | .backplaneResetRelease _, _ | .supplyLoss, _ => .inr (.inr (by simp [MayEndActive]))

/-! ## The sides of ABOVE and BELOW -/

section Sides
variable {f : ConditionFields} {v : Nat}

theorem sideOf_of_above (h : compareOf f.compare = some .above) :
    sideOf f v = if f.level1 < v then .set else if v < f.level2 then .clear else .neither := by
  simp [sideOf, h]

theorem sideOf_of_below (h : compareOf f.compare = some .below) :
    sideOf f v = if v < f.level1 then .set else if f.level2 < v then .clear else .neither := by
  simp [sideOf, h]

theorem sideOf_above_eq_set_iff (h : compareOf f.compare = some .above) : sideOf f v = .set ↔ f.level1 < v := by
  rw [sideOf_of_above h]
  split_ifs <;> simp <;> omega

theorem sideOf_above_eq_clear_iff (h : compareOf f.compare = some .above) :
    sideOf f v = .clear ↔ v ≤ f.level1 ∧ v < f.level2 := by
  rw [sideOf_of_above h]
  split_ifs <;> simp <;> omega

theorem sideOf_above_eq_neither_iff (h : compareOf f.compare = some .above) :
    sideOf f v = .neither ↔ f.level2 ≤ v ∧ v ≤ f.level1 := by
  rw [sideOf_of_above h]
  split_ifs <;> simp <;> omega

theorem sideOf_below_eq_set_iff (h : compareOf f.compare = some .below) : sideOf f v = .set ↔ v < f.level1 := by
  rw [sideOf_of_below h]
  split_ifs <;> simp <;> omega

theorem sideOf_below_eq_clear_iff (h : compareOf f.compare = some .below) :
    sideOf f v = .clear ↔ f.level1 ≤ v ∧ f.level2 < v := by
  rw [sideOf_of_below h]
  split_ifs <;> simp <;> omega

theorem sideOf_below_eq_neither_iff (h : compareOf f.compare = some .below) :
    sideOf f v = .neither ↔ f.level1 ≤ v ∧ v ≤ f.level2 := by
  rw [sideOf_of_below h]
  split_ifs <;> simp <;> omega

end Sides

/-! ## The checks of the levels (R41) -/

theorem compareOf_eq_above_iff (n : Nat) : compareOf n = some .above ↔ n = 1 := by
  match n with
  | 0 | 1 | 2 | 3 | 4 | 5 => decide
  | n + 6 => simp [compareOf]

theorem compareOf_eq_below_iff (n : Nat) : compareOf n = some .below ↔ n = 2 := by
  match n with
  | 0 | 1 | 2 | 3 | 4 | 5 => decide
  | n + 6 => simp [compareOf]

/-- R41: an enabled entry that passes its checks passes the check of each of its thirteen fields. -/
theorem fieldPasses_of_checkCondition_eq_none {f : ConditionFields} (henabled : f.enable = 1)
    (hcheck : checkCondition f = none) {n : Nat} (h1 : 1 ≤ n) (h13 : n ≤ 13) : ConditionFieldPasses f n := by
  have hspec := (checkCondition_spec f).2 (by omega)
  rw [hcheck] at hspec
  exact hspec n h1 h13

/-- R41: the levels of an ABOVE or BELOW entry that passes its checks lie in the range of a count and in order. -/
theorem levels_of_checkCondition_eq_none {f : ConditionFields} (henabled : f.enable = 1)
    (hcompare : compareOf f.compare = some .above ∨ compareOf f.compare = some .below)
    (hcheck : checkCondition f = none) :
    f.level1 ≤ 4095 ∧ f.level2 ≤ 4095
    ∧ (compareOf f.compare = some .above → f.level2 ≤ f.level1)
    ∧ (compareOf f.compare = some .below → f.level1 ≤ f.level2) := by
  rw [compareOf_eq_above_iff, compareOf_eq_below_iff] at hcompare
  rw [compareOf_eq_above_iff, compareOf_eq_below_iff]
  have hne : f.compare ≠ 4 := by omega
  have hlevel1 : f.level1 ≤ if f.compare = 4 then 60000 else 4095 :=
    fieldPasses_of_checkCondition_eq_none henabled hcheck (n := 5) (by decide) (by decide)
  obtain ⟨hlevel2, habove, hbelow, _⟩ :=
    fieldPasses_of_checkCondition_eq_none henabled hcheck (n := 6) (by decide) (by decide)
  rw [if_neg hne] at hlevel1 hlevel2
  exact ⟨hlevel1, hlevel2, fun h => habove (.inl h), hbelow⟩

/-! ## An ACTIVE entry whose clear side no count reaches -/

/-- R21: a level 2 that leaves no count, 0 to 4095, on the clear side. -/
def ClearUnreachable (f : ConditionFields) : Prop :=
  (compareOf f.compare = some .above ∧ f.level2 = 0) ∨ (compareOf f.compare = some .below ∧ f.level2 = 4095)

theorem ClearUnreachable.sideOf_ne_clear {f : ConditionFields} {count : Nat} (h : ClearUnreachable f)
    (hcount : count ≤ 4095) : sideOf f count ≠ .clear := by
  rcases h with ⟨habove, hlevel2⟩ | ⟨hbelow, hlevel2⟩
  · rw [Ne, sideOf_above_eq_clear_iff habove]
    omega
  · rw [Ne, sideOf_below_eq_clear_iff hbelow]
    omega

/-- R21: such an entry compares the count itself. -/
theorem ClearUnreachable.quantity_eq {f : ConditionFields} (h : ClearUnreachable f) (sc : Scanner) (p : Point) :
    quantity sc f p = look sc.latest p := by
  rcases h with ⟨hcompare, _⟩ | ⟨hcompare, _⟩ <;> simp [quantity, hcompare]

/-- R27: an arrival on the set side or on neither leaves an ACTIVE entry ACTIVE, with its fields. -/
theorem LiveEntry.take_of_active {e : LiveEntry} {side : Side} (hactive : e.state = .active) (hside : side ≠ .clear) :
    (e.take side).1.fields = e.fields ∧ (e.take side).1.state = .active := by
  cases side with
  | clear => exact absurd rfl hside
  | set | neither => simp [LiveEntry.take, hactive]

/-- The entry stands ACTIVE with the fields `f`. -/
def StandsActive (f : ConditionFields) (e : LiveEntry) : Prop := e.fields = f ∧ e.state = .active

theorem arrivalMove_standsActive {f : ConditionFields} {e : LiveEntry} {sc : Scanner} (p : Point)
    (hclear : ClearUnreachable f) (hcount : look sc.latest p ≤ 4095) (he : StandsActive f e) :
    StandsActive f (arrivalMove sc p e).1 := by
  obtain ⟨rfl, hactive⟩ := he
  unfold arrivalMove
  split
  · exact LiveEntry.take_of_active hactive (hclear.sideOf_ne_clear (by rwa [hclear.quantity_eq]))
  · exact ⟨rfl, hactive⟩

/-- R20: the evaluation of an arrival, every entry in its turn. -/
theorem evaluate_standsActive {f : ConditionFields} {s : State} {i : EntryIx} (p : Point) (order : List EntryIx)
    (hclear : ClearUnreachable f) (hcount : look s.scanner.latest p ≤ 4095) (he : StandsActive f (s.entry i)) :
    StandsActive f ((evaluate p order s).entry i) := by
  refine (forEach_keeps (fun t => t.scanner = s.scanner ∧ StandsActive f (t.entry i)) _ _ s ?_ ⟨rfl, he⟩).2
  rintro j - t ⟨hscanner, ht⟩
  refine ⟨(evaluateEntry_scanner _ _ _ _).trans hscanner, ?_⟩
  rw [evaluateEntry_entry]
  split
  case isTrue hij =>
    subst hij
    exact arrivalMove_standsActive p hclear (by rwa [hscanner]) ht
  case isFalse => exact ht

/-- R2: a count is at most 4095. -/
theorem saturate_le (input : Int) : saturate input ≤ 4095 := Nat.min_le_left _ _

/-- R2, R20: a sample arrival leaves such an entry ACTIVE. -/
theorem execSampleArrival_standsActive {f : ConditionFields} {s t : State} {i : EntryIx} {p : Point} {input : Int}
    {order : List EntryIx} (hclear : ClearUnreachable f) (he : StandsActive f (s.entry i))
    (ht : execSampleArrival p input order s = .next t) : StandsActive f (t.entry i) := by
  unfold execSampleArrival at ht
  split at ht
  · cases ht
    have hlatest : look (takeCount p (saturate input) s).scanner.latest p ≤ 4095 := by
      simpa [takeCount] using saturate_le input
    simpa [State.entry] using evaluate_standsActive p order hclear hlatest he
  · cases ht
    exact he

/-- R21: nothing but the commands of `MayEndActive` takes such an entry out of ACTIVE. -/
theorem exec_standsActive_or {f : ConditionFields} {cmd : Instr} {s t : State} {i : EntryIx}
    (hclear : ClearUnreachable f) (he : StandsActive f (s.entry i)) (ht : exec cmd s = .next t) :
    StandsActive f (t.entry i) ∨ MayEndActive cmd := by
  rcases exec_keepsEntries_or cmd s with hkeeps | ⟨p, input, order, rfl⟩ | hends
  · rw [hkeeps.entry ht]
    exact .inl he
  · exact .inl (execSampleArrival_standsActive hclear he ht)
  · exact .inr hends

/-- Settles O31: the sides follow from the rule's two comparisons; an entry whose clear side no count reaches is moved
by no sample arrival, and every other command outside the list leaves the live entries as they are. -/
theorem aboveAndBelowSides : Obligations.AboveAndBelowSides := by
  intro f count
  refine ⟨fun henabled hcompare hcheck => levels_of_checkCondition_eq_none henabled hcompare hcheck,
    fun habove horder => ?aboveSides, fun hbelow horder => ?belowSides,
    fun hcount habove hlevel1 => ?aboveSetUnreachable, fun habove hlevel2 => ?aboveClearUnreachable,
    fun hbelow hlevel1 => ?belowSetUnreachable,
    fun hcount hbelow hlevel2 => ClearUnreachable.sideOf_ne_clear (.inr ⟨hbelow, hlevel2⟩) hcount,
    fun cmd i s t hfields hactive hclear ht => ?staysActive⟩
  case aboveSides =>
    rw [sideOf_above_eq_set_iff habove, sideOf_above_eq_clear_iff habove, sideOf_above_eq_neither_iff habove]
    omega
  case belowSides =>
    rw [sideOf_below_eq_set_iff hbelow, sideOf_below_eq_clear_iff hbelow, sideOf_below_eq_neither_iff hbelow]
    omega
  case aboveSetUnreachable =>
    rw [Ne, sideOf_above_eq_set_iff habove]
    omega
  case aboveClearUnreachable =>
    rw [Ne, sideOf_above_eq_clear_iff habove]
    omega
  case belowSetUnreachable =>
    rw [Ne, sideOf_below_eq_set_iff hbelow]
    omega
  case staysActive => exact (exec_standsActive_or hclear ⟨hfields, hactive⟩ ht).imp_left And.right

end Sys2Proof.Machine

/-! The limit set (R111): its smallest level, and the source that governs at it. -/

namespace Sys2Proof.Machine
namespace DriveResolver
variable {r q : DriveResolver} {x : Nat}

/-! ## The smallest level present -/

@[simp] theorem mem_levels :
    x ∈ r.levels ↔ r.ramp = some x ∨ r.foldback = some x ∨ r.positions = some x ∨ r.target = some x := by
  simp [levels, eq_comm]

/-- R111: the empty set has no level. -/
theorem levels_eq_nil_iff :
    r.levels = [] ↔ r.ramp = none ∧ r.foldback = none ∧ r.positions = none ∧ r.target = none := by
  simp [levels]

theorem resolved_of_levels_eq_nil (h : r.levels = []) : r.resolved = 0 := by
  simp [resolved, h]

/-- R111: in a set that is not empty the resolved level is the level of some entry. -/
theorem resolved_mem_levels (h : x ∈ r.levels) : r.resolved ∈ r.levels := by
  obtain ⟨least, hleast⟩ := Option.isSome_iff_exists.1 (List.isSome_min?_of_mem h)
  rw [resolved, hleast, Option.getD_some]
  exact List.min?_mem hleast

/-- R111: no level present is below the resolved level. -/
theorem resolved_le_of_mem (h : x ∈ r.levels) : r.resolved ≤ x := List.min?_getD_le_of_mem h

/-! ## The governing source: an equivalence for each source -/

theorem governing_eq_ramp_iff : r.governing = .ramp ↔ r.ramp = some r.resolved := by
  rw [governing]
  split_ifs <;> simp [*]

theorem governing_eq_foldback_iff :
    r.governing = .foldback ↔ r.foldback = some r.resolved ∧ r.ramp ≠ some r.resolved := by
  rw [governing]
  split_ifs <;> simp [*]

theorem governing_eq_positions_iff :
    r.governing = .positions ↔ r.positions = some r.resolved ∧ r.ramp ≠ some r.resolved
      ∧ r.foldback ≠ some r.resolved := by
  rw [governing]
  split_ifs <;> simp [*]

theorem governing_eq_target_iff :
    r.governing = .target ↔ r.target = some r.resolved ∧ r.ramp ≠ some r.resolved
      ∧ r.foldback ≠ some r.resolved ∧ r.positions ≠ some r.resolved := by
  rw [governing]
  split_ifs <;> simp [*]

/-- No source governs where no entry holds the resolved level. -/
theorem governing_eq_none_iff : r.governing = .none ↔ r.resolved ∉ r.levels := by
  rw [governing, mem_levels]
  split_ifs <;> simp [*]

/-! ## What the two depend on, and the completed ramp -/

theorem resolved_congr (h : q.levels = r.levels) : q.resolved = r.resolved := congrArg (fun l => l.min?.getD 0) h

theorem levels_congr (hramp : q.ramp = r.ramp) (hfoldback : q.foldback = r.foldback)
    (hpositions : q.positions = r.positions) (htarget : q.target = r.target) : q.levels = r.levels := by
  rw [levels, levels, hramp, hfoldback, hpositions, htarget]

theorem governing_congr (hramp : q.ramp = r.ramp) (hfoldback : q.foldback = r.foldback)
    (hpositions : q.positions = r.positions) (htarget : q.target = r.target) : q.governing = r.governing := by
  rw [governing, governing, resolved_congr (levels_congr hramp hfoldback hpositions htarget), hramp, hfoldback,
    hpositions, htarget]

/-- R102: a RAMP entry at or above some other entry's level is complete. -/
theorem rampComplete_of_le {level other : Nat} (hramp : r.ramp = some level)
    (hother : r.foldback = some other ∨ r.positions = some other ∨ r.target = some other) (hle : other ≤ level) :
    r.rampComplete = true := by
  have hmem : other ∈ [r.foldback, r.positions, r.target].filterMap id := by
    simpa [eq_comm] using hother
  obtain ⟨least, hleast⟩ := Option.isSome_iff_exists.1 (List.isSome_min?_of_mem hmem)
  have hbound : least ≤ level := ((List.min?_eq_some_iff.1 hleast).2 other hmem).trans hle
  rw [rampComplete, hramp, hleast]
  exact decide_eq_true hbound

end DriveResolver

open DriveResolver

/-- Settles O38: the resolved level is the minimum of the levels present, and the governing source is read off by one
equivalence for each source; a RAMP entry equal to the TARGET is at or above another entry. -/
theorem resolvedLevelAndSource : Obligations.ResolvedLevelAndSource := by
  intro r
  refine ⟨fun hramp hfoldback hpositions htarget => ?empty, fun x hx => ?present, governing_eq_ramp_iff,
    governing_eq_foldback_iff, governing_eq_positions_iff, governing_eq_target_iff,
    fun q hramp hfoldback hpositions htarget => ?entriesAlone, fun x hramp htarget hresolved => ?rampAtTarget⟩
  case empty =>
    have hnil : r.levels = [] := levels_eq_nil_iff.2 ⟨hramp, hfoldback, hpositions, htarget⟩
    exact ⟨resolved_of_levels_eq_nil hnil, governing_eq_none_iff.2 (hnil ▸ List.not_mem_nil)⟩
  case present =>
    have hmem : r.resolved ∈ r.levels := resolved_mem_levels (mem_levels.2 hx)
    exact ⟨resolved_le_of_mem (mem_levels.2 hx), mem_levels.1 hmem, fun hnone => governing_eq_none_iff.1 hnone hmem⟩
  case entriesAlone =>
    exact ⟨resolved_congr (levels_congr hramp hfoldback hpositions htarget),
      governing_congr hramp hfoldback hpositions htarget⟩
  case rampAtTarget =>
    exact ⟨governing_eq_ramp_iff.2 (hresolved ▸ hramp),
      rampComplete_of_le hramp (.inr (.inr htarget)) le_rfl⟩

end Sys2Proof.Machine

/-! The resets (R159) and the writes to ATTN (R154): when each is taken, what the card is left as, and which commands
move the card to another phase at all. -/

namespace Sys2Proof.Machine

/-! ## Operations that leave the phase as it is

The phase belongs to no block: an operation of a block changes its own fields, memory, deliveries and records. One lemma
for each operation, in the order of the model's blocks. -/

theorem forEach_phase {α : Type} {f : α → State → State} (l : List α) (s : State)
    (h : ∀ x t, (f x t).phase = t.phase) : (forEach l f s).phase = s.phase :=
  forEach_same State.phase f l s (fun x _ t => h x t)

/-! Records, deliveries and the parts of the Channel Controllers -/

@[simp] theorem sendRecord_phase (sender : Sender) (after : Option Stamp) (awaits : Bool) (r : Record) (s : State) :
    (sendRecord sender after awaits r s).phase = s.phase := rfl

@[simp] theorem sendChannel_phase (c : Channel) (after : Option Stamp) (r : Record) (s : State) :
    (sendChannel c after r s).phase = s.phase := rfl

@[simp] theorem recordChange_phase (c : Channel) (after : Option Stamp) (s : State) :
    (recordChange c after s).phase = s.phase := rfl

@[simp] theorem deliverScanner_phase (c : Channel) (e : ScannerEvent) (s : State) :
    (deliverScanner c e s).phase = s.phase := rfl

@[simp] theorem setState_phase (c : Channel) (st : ChannelState) (s : State) : (setState c st s).phase = s.phase := rfl

/-! The Capture Unit, the Journal Writer and the Status Writer -/

@[simp] theorem writeCaptureHeader_phase (b : BufferIx) (s : State) : (writeCaptureHeader b s).phase = s.phase := rfl

@[simp] theorem changeBuffer_phase (b : BufferIx) (x : CaptureBuffer) (s : State) :
    (changeBuffer b x s).phase = s.phase := rfl

@[simp] theorem takeTrigger_phase (o : TriggerOutcome) (c : Channel) (s : State) :
    (takeTrigger o c s).phase = s.phase := by
  cases o <;> rfl

@[simp] theorem finishFill_phase (s : State) : (finishFill s).phase = s.phase := by
  rw [(finishFill_frame s).1]

@[simp] theorem fillCapture_phase (j : CapturedIx) (value : Nat) (s : State) :
    (fillCapture j value s).phase = s.phase := by
  unfold fillCapture
  cases findBuffer .filling s with
  | none => rfl
  | some b => by_cases h : look s.captures.postCounts j < 64 <;> simp [h]

@[simp] theorem holdCapture_phase (a : Arguments) (s : State) : (holdCapture a s).1.phase = s.phase := by
  unfold holdCapture
  cases captureRefusal a s with
  | inr code => rfl
  | inl b => cases h : (s.buffer b).state <;> simp [h]

@[simp] theorem releaseCapture_phase (a : Arguments) (s : State) : (releaseCapture a s).1.phase = s.phase := by
  unfold releaseCapture
  cases captureRefusal a s <;> rfl

@[simp] theorem numberRecord_phase (r : Record) (s : State) : (numberRecord r s).phase = s.phase := by
  rw [numberRecord_frame]

@[simp] theorem copyField_phase (k : Nat) (s : State) : (copyField k s).phase = s.phase := by
  unfold copyField
  split
  · split <;> rfl
  · rfl

@[simp] theorem bumpUpdateCount_phase (s : State) : (bumpUpdateCount s).phase = s.phase := rfl

/-! The Arbiter and Strike Accounting -/

@[simp] theorem joinTail_phase (c : Channel) (s : State) : (joinTail c s).phase = s.phase := by
  simp [joinTail_eq]

@[simp] theorem joinHead_phase (c : Channel) (s : State) : (joinHead c s).phase = s.phase := rfl

@[simp] theorem releaseEngine_phase (c : Channel) (s : State) : (releaseEngine c s).phase = s.phase := by
  simp [releaseEngine_eq]

@[simp] theorem offerGrant_phase (s : State) : (offerGrant s).phase = s.phase := by
  simp [offerGrant_eq]

@[simp] theorem holdEngine_phase (c : Channel) (s : State) : (holdEngine c s).phase = s.phase := rfl

@[simp] theorem cut_phase (c : Channel) (s : State) : (cut c s).phase = s.phase := by
  simp [cut_eq]

@[simp] theorem dropRamp_phase (c : Channel) (s : State) : (dropRamp c s).phase = s.phase := rfl

@[simp] theorem prune_phase (c : Channel) (s : State) : (prune c s).phase = s.phase := rfl

@[simp] theorem endConfirmation_phase (c : Channel) (s : State) : (endConfirmation c s).phase = s.phase := by
  rw [endConfirmation_eq]
  rfl

@[simp] theorem verdict_phase (c : Channel) (extended : Bool) (after : Option Stamp) (s : State) :
    (verdict c extended after s).phase = s.phase := by
  rw [(verdict_frame c extended after s).1]

@[simp] theorem confirmRestrike_phase (a : Arguments) (s : State) : (confirmRestrike a s).1.phase = s.phase := by
  unfold confirmRestrike
  cases index 4 a.word1 with
  | none => rfl
  | some c => simp only []; split_ifs <;> simp [acceptAnswer, declineAnswer]

@[simp] theorem wrapCounter_phase (s : State) : (wrapCounter s).phase = s.phase :=
  forEach_phase allChannels { s with now := 0 } prune_phase

@[simp] theorem tick_phase (s : State) : (tick s).phase = s.phase := by
  unfold tick
  split <;> simp

/-! The Drive Resolvers -/

@[simp] theorem rampStep_phase (c : Channel) (s : State) : (rampStep c s).phase = s.phase := rfl

@[simp] theorem foldbackStep_phase (c : Channel) (s : State) : (foldbackStep c s).phase = s.phase := by
  unfold foldbackStep
  simp only []
  split <;> rfl

@[simp] theorem foldbackWork_phase (c : Channel) (s : State) : (foldbackWork c s).phase = s.phase := by
  unfold foldbackWork
  split_ifs
  · rfl
  · simp
  · cases (s.resolver c).foldback <;> rfl

@[simp] theorem raise_phase (c : Channel) (s : State) : (raise c s).phase = s.phase := by
  unfold raise
  split <;> rfl

@[simp] theorem completionTest_phase (c : Channel) (s : State) : (completionTest c s).phase = s.phase := by
  simp [completionTest_eq]

@[simp] theorem reportStep_phase (c : Channel) (s : State) : (reportStep c s).phase = s.phase := rfl

@[simp] theorem markWork_phase (c : Channel) (s : State) : (markWork c s).phase = s.phase := by
  unfold markWork
  simp only []
  split_ifs <;> simp

@[simp] theorem changeEntry_phase (c : Channel) (r : DriveResolver) (s : State) :
    (changeEntry c r s).phase = s.phase := by
  unfold changeEntry
  split <;> simp

@[simp] theorem setTarget_phase (a : Arguments) (s : State) : (setTarget a s).1.phase = s.phase := by
  unfold setTarget
  cases index 4 a.word1 with
  | none => rfl
  | some c => simp only []; split_ifs <;> simp

/-! The Channel Controllers -/

@[simp] theorem leaveAir_phase (c : Channel) (s : State) : (leaveAir c s).phase = s.phase := by
  simp [leaveAir_eq]

@[simp] theorem depart_phase (c : Channel) (s : State) : (depart c s).phase = s.phase := by
  rw [depart_eq]
  rfl

@[simp] theorem liveStrike_phase (c : Channel) (cause : Cause) (after : Option Stamp) (s : State) :
    (liveStrike c cause after s).phase = s.phase := by
  simp [liveStrike, strikeVerdict_eq, appendStrike]

@[simp] theorem mutedStrike_phase (c : Channel) (cause : Cause) (after : Option Stamp) (s : State) :
    (mutedStrike c cause after s).phase = s.phase := rfl

@[simp] theorem takeStrike_phase (c : Channel) (cause : Cause) (after : Option Stamp) (s : State) :
    (takeStrike c cause after s).phase = s.phase := by
  unfold takeStrike
  cases (s.chan c).state <;> simp

@[simp] theorem endHoldoff_phase (c : Channel) (after : Option Stamp) (s : State) :
    (endHoldoff c after s).phase = s.phase :=
  verdict_phase c _ after _

@[simp] theorem extendHoldoff_phase (c : Channel) (s : State) : (extendHoldoff c s).phase = s.phase := rfl

@[simp] theorem askAgain_phase (c : Channel) (after : Option Stamp) (s : State) :
    (askAgain c after s).phase = s.phase := by
  unfold askAgain
  split <;> simp

@[simp] theorem takeLockout_phase (c : Channel) (e : EntryIx) (capture : Bool) (after : Option Stamp) (s : State) :
    (takeLockout c e capture after s).phase = s.phase := by
  unfold takeLockout
  cases (s.chan c).state <;> simp

@[simp] theorem takeOpened_phase (c : Channel) (after : Option Stamp) (s : State) :
    (takeOpened c after s).phase = s.phase := by
  unfold takeOpened
  cases (s.chan c).state <;> simp

@[simp] theorem takeClosed_phase (c : Channel) (after : Option Stamp) (s : State) :
    (takeClosed c after s).phase = s.phase := by
  unfold takeClosed
  split <;> simp

@[simp] theorem channelOn_phase (a : Arguments) (s : State) : (channelOn a s).1.phase = s.phase := by
  unfold channelOn
  cases index 4 a.word1 with
  | none => rfl
  | some c =>
    simp only []
    split
    · rfl
    · cases channelOnRefusal c s <;> simp [takeOn]

@[simp] theorem enterOff_phase (c : Channel) (s : State) : (enterOff c s).phase = s.phase := rfl

@[simp] theorem channelOff_phase (a : Arguments) (s : State) : (channelOff a s).1.phase = s.phase := by
  unfold channelOff
  cases index 4 a.word1 with
  | none => rfl
  | some c => cases h : (s.chan c).state <;> simp [h, takeOff]

@[simp] theorem releaseLockout_phase (a : Arguments) (s : State) : (releaseLockout a s).1.phase = s.phase := by
  unfold releaseLockout
  cases index 4 a.word1 with
  | none => rfl
  | some c => simp only []; split_ifs <;> simp

/-! The Condition Evaluator -/

@[simp] theorem withdrawAction_phase (after : Option Stamp) (i : EntryIx) (f : ConditionFields) (value : Option Nat)
    (replaced : Bool) (s : State) : (withdrawAction after i f value replaced s).phase = s.phase := by
  rw [withdrawAction, withdrawnDeliveries_frame]
  rfl

@[simp] theorem evaluateEntry_phase (p : Point) (after : Option Stamp) (i : EntryIx) (s : State) :
    (evaluateEntry p after i s).phase = s.phase := by
  unfold evaluateEntry
  simp only []
  split
  · rw [sendClaim_frame]; rfl
  · rfl

@[simp] theorem evaluate_phase (p : Point) (order : List EntryIx) (s : State) :
    (evaluate p order s).phase = s.phase :=
  forEach_phase _ s (evaluateEntry_phase p _)

@[simp] theorem clearCondition_phase (a : Arguments) (s : State) : (clearCondition a s).1.phase = s.phase := by
  unfold clearCondition
  cases index 96 a.word1 with
  | none => rfl
  | some i =>
    cases h : (s.entry i).state with
    | active => simp only [h]; split_ifs <;> simp
    | disabled | normal | arming | clearing => simp [h]

@[simp] theorem readDrafts_phase (upTo : Nat) (s : State) : (readDrafts upTo s).phase = s.phase := by
  unfold readDrafts
  cases s.evaluator.load <;> rfl

@[simp] theorem switchEntry_phase (i : EntryIx) (f : ConditionFields) (s : State) :
    (switchEntry i f s).phase = s.phase := by
  unfold switchEntry
  simp only []
  split_ifs <;> simp

@[simp] theorem switchArc_phase (old new : SiteSettings) (l : ArcLine) (c : Channel) (s : State) :
    (switchArc old new l c s).phase = s.phase := by
  unfold switchArc
  split_ifs <;> simp

@[simp] theorem switchArcs_phase (old new : SiteSettings) (lineOrder : List ArcLine) (s : State) :
    (switchArcs old new lineOrder s).phase = s.phase := by
  refine forEach_phase _ s (fun l t => ?_)
  split
  · exact forEach_phase allChannels t (switchArc_phase old new l)
  · rfl

@[simp] theorem switchTables_phase (drafts : List ConditionFields) (settings : SiteSettings) (lineOrder : List ArcLine)
    (s : State) : (switchTables drafts settings lineOrder s).phase = s.phase :=
  (switchArcs_phase _ _ _ _).trans (forEach_phase _ s (fun x => switchEntry_phase x.1 x.2))

@[simp] theorem endLoad_phase (l : Load) (lineOrder : List ArcLine) (s : State) :
    (endLoad l lineOrder s).1.phase = s.phase := by
  unfold endLoad
  simp only []
  split <;> simp

/-! The Position Monitor -/

@[simp] theorem moveCounted_phase (p : PositionIx) (st : PositionState) (s : State) :
    (moveCounted p st s).phase = s.phase := by
  rw [moveCounted_frame]

@[simp] theorem recordPosition_phase (p : PositionIx) (after : Option Stamp) (condition : Option EntryIx)
    (value : Option Nat) (s : State) : (recordPosition p after condition value s).phase = s.phase := rfl

@[simp] theorem takePresence_phase (p : PositionIx) (active : Bool) (s : State) :
    (takePresence p active s).phase = s.phase := by
  unfold takePresence
  simp only []
  split <;> simp [loseModule]

@[simp] theorem sendCount_phase (c : Channel) (s : State) : (sendCount c s).phase = s.phase := rfl

@[simp] theorem startRead_phase (p : PositionIx) (s : State) : (startRead p s).phase = s.phase := rfl

@[simp] theorem endRead_phase (p : PositionIx) (code : Byte) (s : State) : (endRead p code s).phase = s.phase := rfl

@[simp] theorem enablePosition_phase (a : Arguments) (s : State) : (enablePosition a s).1.phase = s.phase := by
  unfold enablePosition
  cases index 24 a.word1 with
  | none => rfl
  | some p => cases h : enableRefusal p s <;> simp [h]

@[simp] theorem disablePosition_phase (a : Arguments) (s : State) : (disablePosition a s).1.phase = s.phase := by
  unfold disablePosition
  cases index 24 a.word1 with
  | none => rfl
  | some p => cases h : (s.position p).state <;> simp [h]

@[simp] theorem takeTrip_phase (p : PositionIx) (e : EntryIx) (after : Option Stamp) (s : State) :
    (takeTrip p e after s).phase = s.phase := by
  unfold takeTrip
  cases (s.position p).state <;> simp

@[simp] theorem recheckPosition_phase (c : Channel) (f : Profile) (k : Fin 6) (s : State) :
    (recheckPosition c f k s).phase = s.phase := by
  unfold recheckPosition
  simp only []
  split <;> rfl

@[simp] theorem installProfile_phase (c : Channel) (f : Profile) (s : State) :
    (installProfile c f s).phase = s.phase := by
  simp [installProfile, recheck, forEach_phase (List.finRange 6) _ (recheckPosition_phase c f)]

@[simp] theorem loadProfile_phase (a : Arguments) (s : State) : (loadProfile a s).1.phase = s.phase := by
  unfold loadProfile
  cases index 4 a.word1 with
  | none => rfl
  | some c =>
    simp only []
    split
    · rfl
    · cases checkProfile (readProfile s.mem c) <;> simp

/-! The Input Scanner and the Frame Mark Monitors -/

@[simp] theorem captureArrival_phase (p : Point) (count : Nat) (s : State) :
    (captureArrival p count s).phase = s.phase := by
  unfold captureArrival
  cases capturedIndex p with
  | none => rfl
  | some j => exact fillCapture_phase j count (pushRing j count s)

@[simp] theorem changeInterlock_phase (closed : Bool) (s : State) : (changeInterlock closed s).phase = s.phase :=
  forEach_phase allChannels _ (fun c t => deliverScanner_phase c (if closed then .closed else .opened) t)

@[simp] theorem setPresent_phase (c : Channel) (present : Bool) (s : State) :
    (setPresent c present s).phase = s.phase := by
  unfold setPresent
  split <;> rfl

@[simp] theorem passMark_phase (c : Channel) (s : State) : (passMark c s).phase = s.phase := rfl

@[simp] theorem countMark_phase (c : Channel) (s : State) : (countMark c s).phase = s.phase := rfl

/-! The Request Handler and the areas of initialization -/

@[simp] theorem writeConfirmation_phase (c : Channel) (s : State) : (writeConfirmation c s).phase = s.phase := rfl

@[simp] theorem writeArea_phase (area : InitArea) (s : State) : (writeArea area s).phase = s.phase := by
  cases area with
  | slots => exact forEach_phase (List.finRange 16) s (fun k t => State.write_phase t (slotAddress k) _)
  | confirmations => exact forEach_phase allChannels s writeConfirmation_phase
  | captures => exact forEach_phase (List.finRange 4) _ writeCaptureHeader_phase
  | release | journal | identity => rfl

@[simp] theorem initializeArea_phase (area : InitArea) (s : State) : (initializeArea area s).phase = s.phase := by
  unfold initializeArea
  split <;> simp

@[simp] theorem takeTraffic_phase (item : Traffic) (s : State) : (takeTraffic item s).phase = s.phase := by
  cases item with
  | write a b => rfl
  | initArea area => exact initializeArea_phase area s
  | readDrafts upTo => exact readDrafts_phase upTo s

@[simp] theorem moveOn_phase (more : Nat) (s : State) : (moveOn more s).phase = s.phase := by
  unfold moveOn
  split <;> rfl

@[simp] theorem completeSlot_phase (k : SlotIx) (r : Reply) (s : State) : (completeSlot k r s).phase = s.phase := by
  rw [completeSlot_frame]

@[simp] theorem takeLoad_phase (k : SlotIx) (s : State) : (takeLoad k s).phase = s.phase := rfl

/-- R153: the work of every request keeps the phase. -/
theorem workOf_phase (kind : Option RequestKind) (a : Arguments) (s : State) : (workOf kind a s).1.phase = s.phase := by
  cases kind with
  | none => rfl
  | some kind => cases kind <;> simp [workOf, refuseKind]

@[simp] theorem serve_workOf_phase (k : SlotIx) (kind : Option RequestKind) (s : State) :
    (serve k (workOf kind) s).phase = s.phase :=
  (completeSlot_phase k _ _).trans (workOf_phase kind _ (writeSlotState k 2 s))

@[simp] theorem visitFor_workOf_phase (kind : RequestKind) (s : State) :
    (visitFor kind (workOf (some kind)) s).phase = s.phase := by
  unfold visitFor
  cases offered (some kind) s with
  | none => rfl
  | some k => exact serve_workOf_phase k (some kind) s

/-! ## Commands that leave the phase as it is -/

/-- The outcome goes on, in the phase of `s`. -/
def KeepsPhase (s : State) : Host.Outcome State Fault Refusal → Prop
  | .next t => t.phase = s.phase
  | .fault _ | .refused _ => False

@[simp] theorem keepsPhase_next (s t : State) : KeepsPhase s (.next t) ↔ t.phase = s.phase := Iff.rfl

/-- Commands with one test: the outcome keeps the phase when the change behind the test does. -/
theorem keepsPhase_ite_next (p : Prop) [Decidable p] {s t : State} (h : t.phase = s.phase) :
    KeepsPhase s (if p then .next t else .next s) := by
  split
  · exact h
  · rfl

/-! Registers, memory and sweeps -/

theorem execSlotStateWrite_keepsPhase (before : List Traffic) (slot : SlotIx) (value : Word) (s : State) :
    KeepsPhase s (execSlotStateWrite before slot value s) := by
  unfold execSlotStateWrite
  split
  · rfl
  · exact forEach_phase before s takeTraffic_phase

theorem execJournalReleaseWrite_keepsPhase (w : ReleaseWrite) (s : State) :
    KeepsPhase s (execJournalReleaseWrite w s) := by
  unfold execJournalReleaseWrite
  split <;> rfl

theorem execAttn_keepsPhase (value : Word) (s : State) : KeepsPhase s (execAttn value s) := by
  unfold execAttn
  split <;> rfl

theorem execSweepEnd_keepsPhase (s : State) : KeepsPhase s (execSweepEnd s) := by
  unfold execSweepEnd
  split
  · exact keepsPhase_ite_next _ rfl
  · rfl

/-! Requests -/

theorem execSlotVisit_keepsPhase (s : State) : KeepsPhase s (execSlotVisit s) := by
  unfold execSlotVisit
  split
  · rfl
  · split
    · split <;> simp
    · simp

theorem execBadKind_keepsPhase (s : State) : KeepsPhase s (execBadKind s) := by
  unfold execBadKind
  split
  · exact serve_workOf_phase _ none s
  · rfl

theorem execLoadConditions_keepsPhase (s : State) : KeepsPhase s (execLoadConditions s) := by
  unfold execLoadConditions
  split <;> rfl

theorem execLoadEnd_keepsPhase (lineOrder : List ArcLine) (s : State) : KeepsPhase s (execLoadEnd lineOrder s) := by
  unfold execLoadEnd
  split <;> simp

/-! Lines and marks -/

theorem execArcLineAssertion_keepsPhase (line : ArcLine) (spell : Nat) (s : State) :
    KeepsPhase s (execArcLineAssertion line spell s) :=
  keepsPhase_ite_next _ (forEach_phase _ _ (fun c t => deliverScanner_phase c (.strike line) t))

theorem execArcLineDeassertion_keepsPhase (line : ArcLine) (spell : Nat) (s : State) :
    KeepsPhase s (execArcLineDeassertion line spell s) :=
  keepsPhase_ite_next _ (forEach_phase _ _ (fun c t => deliverScanner_phase c (.arcCleared line) t))

theorem execInterlockLoopOpening_keepsPhase (spell : Nat) (s : State) :
    KeepsPhase s (execInterlockLoopOpening spell s) := by
  unfold execInterlockLoopOpening
  split_ifs <;> simp

theorem execClosureTimerExpiry_keepsPhase (s : State) : KeepsPhase s (execClosureTimerExpiry s) := by
  unfold execClosureTimerExpiry
  split
  · rfl
  · exact keepsPhase_ite_next _ (changeInterlock_phase true s)

/-! The drive and the engine -/

theorem execFrameMark_keepsPhase (c : Channel) (s : State) : KeepsPhase s (execFrameMark c s) := by
  unfold execFrameMark
  split <;> simp

theorem execFoldbackJoin_keepsPhase (c : Channel) (s : State) : KeepsPhase s (execFoldbackJoin c s) := by
  unfold execFoldbackJoin
  split <;> rfl

theorem execFoldbackLeave_keepsPhase (c : Channel) (s : State) : KeepsPhase s (execFoldbackLeave c s) := by
  unfold execFoldbackLeave
  split <;> rfl

theorem execPositionCount_keepsPhase (c : Channel) (s : State) : KeepsPhase s (execPositionCount c s) := by
  unfold execPositionCount
  split
  · rfl
  · simp only []
    split <;> simp

theorem execStepReport_keepsPhase (c : Channel) (s : State) : KeepsPhase s (execStepReport c s) := by
  unfold execStepReport
  split
  · rfl
  · simp only []
    split <;> rfl

theorem execGrantTaken_keepsPhase (c : Channel) (s : State) : KeepsPhase s (execGrantTaken c s) := by
  unfold execGrantTaken
  split
  · split <;> simp
  · rfl

theorem execRampCompletion_keepsPhase (c : Channel) (s : State) : KeepsPhase s (execRampCompletion c s) := by
  unfold execRampCompletion
  split
  · rfl
  · simp only []
    split <;> simp

theorem execPreemption_keepsPhase (c : Channel) (s : State) : KeepsPhase s (execPreemption c s) := by
  unfold execPreemption
  split
  · rfl
  · simp only []
    split
    · split <;> simp
    all_goals rfl

/-! Strikes, lockouts, the interlock and holdoff -/

theorem execStrike_keepsPhase (c : Channel) (link : StrikeLink) (s : State) : KeepsPhase s (execStrike c link s) := by
  unfold execStrike
  split <;> simp

theorem execLockoutAction_keepsPhase (c : Channel) (s : State) : KeepsPhase s (execLockoutAction c s) := by
  unfold execLockoutAction
  split <;> simp

theorem execConditionClearedEvent_keepsPhase (c : Channel) (s : State) :
    KeepsPhase s (execConditionClearedEvent c s) := by
  unfold execConditionClearedEvent
  split <;> simp

theorem execArcCleared_keepsPhase (c : Channel) (s : State) : KeepsPhase s (execArcCleared c s) := by
  unfold execArcCleared
  split <;> simp

theorem execHoldoffExpiry_keepsPhase (c : Channel) (s : State) : KeepsPhase s (execHoldoffExpiry c s) := by
  unfold execHoldoffExpiry
  split
  · rfl
  · split_ifs <;> simp

theorem execConfirmationExpiry_keepsPhase (c : Channel) (s : State) : KeepsPhase s (execConfirmationExpiry c s) := by
  unfold execConfirmationExpiry
  split
  · rfl
  · exact keepsPhase_ite_next _ (endConfirmation_phase c s)

theorem execInterlockOpenedEvent_keepsPhase (c : Channel) (s : State) :
    KeepsPhase s (execInterlockOpenedEvent c s) := by
  unfold execInterlockOpenedEvent
  split <;> simp

theorem execInterlockClosedEvent_keepsPhase (c : Channel) (s : State) :
    KeepsPhase s (execInterlockClosedEvent c s) := by
  unfold execInterlockClosedEvent
  split <;> simp

/-! Positions, captures, the journal and the status block -/

theorem execPresenceTimerEnd_keepsPhase (p : PositionIx) (s : State) : KeepsPhase s (execPresenceTimerEnd p s) := by
  unfold execPresenceTimerEnd
  split
  · rfl
  · exact keepsPhase_ite_next _ (startRead_phase p s)

theorem execIdentityReadEnd_keepsPhase (p : PositionIx) (code : Option Byte) (s : State) :
    KeepsPhase s (execIdentityReadEnd p code s) := by
  unfold execIdentityReadEnd
  split
  · rfl
  · exact keepsPhase_ite_next _ (endRead_phase p _ s)

theorem execPositionTrip_keepsPhase (p : PositionIx) (e : EntryIx) (s : State) :
    KeepsPhase s (execPositionTrip p e s) := by
  unfold execPositionTrip
  split <;> simp

theorem execJournalRecord_keepsPhase (sender : Sender) (s : State) : KeepsPhase s (execJournalRecord sender s) := by
  unfold execJournalRecord
  split
  · exact keepsPhase_ite_next _ (numberRecord_phase _ _)
  · rfl

theorem execStatusRewrite_keepsPhase (fields : List Nat) (s : State) : KeepsPhase s (execStatusRewrite fields s) := by
  unfold execStatusRewrite
  split
  · exact forEach_phase fields s copyField_phase
  · exact keepsPhase_ite_next _ (forEach_phase fields _ copyField_phase)
  · rfl

theorem execStatusRewriteEnd_keepsPhase (s : State) : KeepsPhase s (execStatusRewriteEnd s) := by
  unfold execStatusRewriteEnd
  split
  · rfl
  · simp [forEach_phase _ s copyField_phase]

/-! ## Every command but those that may move the phase -/

/-- The commands of section 9.6: the two resets, the release of the backplane line, the end of initialization and the
loss of supply. -/
def MayMovePhase (cmd : Instr) : Prop :=
  (∃ b q, cmd = .powerOnReset b q) ∨ (∃ x q, cmd = .controllerReset x q) ∨ (∃ q, cmd = .backplaneResetRelease q)
    ∨ cmd = .initializationEnd ∨ cmd = .supplyLoss

/-- Every other command leaves the phase as it is, in every phase. -/
theorem exec_keepsPhase_or : ∀ (cmd : Instr) (s : State), KeepsPhase s (exec cmd s) ∨ MayMovePhase cmd
  | .attn value, s => .inl (execAttn_keepsPhase value s)
  | .irqEnableWrite _, _ => .inl (keepsPhase_ite_next _ rfl)
  | .registerWriteIgnored _ _, _ => .inl rfl
  | .journalReleaseWrite w, s => .inl (execJournalReleaseWrite_keepsPhase w s)
  | .slotStateWrite before slot value, s => .inl (execSlotStateWrite_keepsPhase before slot value s)
  | .slotVisit, s => .inl (execSlotVisit_keepsPhase s)
  | .sweepEnd, s => .inl (execSweepEnd_keepsPhase s)
  | .badKind, s => .inl (execBadKind_keepsPhase s)
  | .loadConditions, s => .inl (execLoadConditions_keepsPhase s)
  | .loadEnd lineOrder, s => .inl (execLoadEnd_keepsPhase lineOrder s)
  | .clearCondition, s => .inl (visitFor_workOf_phase .clearCondition s)
  | .loadProfile, s => .inl (visitFor_workOf_phase .loadProfile s)
  | .channelOn, s => .inl (visitFor_workOf_phase .channelOn s)
  | .channelOff, s => .inl (visitFor_workOf_phase .channelOff s)
  | .setTarget, s => .inl (visitFor_workOf_phase .setTarget s)
  | .confirmRestrike, s => .inl (visitFor_workOf_phase .confirmRestrike s)
  | .releaseLockout, s => .inl (visitFor_workOf_phase .releaseLockout s)
  | .enablePosition, s => .inl (visitFor_workOf_phase .enablePosition s)
  | .disablePosition, s => .inl (visitFor_workOf_phase .disablePosition s)
  | .holdCapture, s => .inl (visitFor_workOf_phase .holdCapture s)
  | .releaseCapture, s => .inl (visitFor_workOf_phase .releaseCapture s)
  | .sampleArrival _ _ _, _ => .inl (keepsPhase_ite_next _ (by simp [takeCount]))
  | .arcLineAssertion line spell, s => .inl (execArcLineAssertion_keepsPhase line spell s)
  | .arcLineDeassertion line spell, s => .inl (execArcLineDeassertion_keepsPhase line spell s)
  | .interlockLoopOpening spell, s => .inl (execInterlockLoopOpening_keepsPhase spell s)
  | .interlockLoopClosing, _ => .inl (keepsPhase_ite_next _ rfl)
  | .closureTimerExpiry, s => .inl (execClosureTimerExpiry_keepsPhase s)
  | .realMark _ _, _ => .inl (keepsPhase_ite_next _ (by simp))
  | .markIntervalExpiry _, _ => .inl (keepsPhase_ite_next _ (by simp))
  | .frameMark c, s => .inl (execFrameMark_keepsPhase c s)
  | .stepReport c, s => .inl (execStepReport_keepsPhase c s)
  | .grantTaken c, s => .inl (execGrantTaken_keepsPhase c s)
  | .rampCompletion c, s => .inl (execRampCompletion_keepsPhase c s)
  | .preemption c, s => .inl (execPreemption_keepsPhase c s)
  | .strike c link, s => .inl (execStrike_keepsPhase c link s)
  | .lockoutAction c, s => .inl (execLockoutAction_keepsPhase c s)
  | .conditionClearedEvent c, s => .inl (execConditionClearedEvent_keepsPhase c s)
  | .arcCleared c, s => .inl (execArcCleared_keepsPhase c s)
  | .holdoffExpiry c, s => .inl (execHoldoffExpiry_keepsPhase c s)
  | .confirmationExpiry c, s => .inl (execConfirmationExpiry_keepsPhase c s)
  | .interlockOpenedEvent c, s => .inl (execInterlockOpenedEvent_keepsPhase c s)
  | .interlockClosedEvent c, s => .inl (execInterlockClosedEvent_keepsPhase c s)
  | .timeCounterWrap, s => .inl (keepsPhase_ite_next _ (wrapCounter_phase s))
  | .timeCounterTick, s => .inl (keepsPhase_ite_next _ (tick_phase s))
  | .foldbackJoin c, s => .inl (execFoldbackJoin_keepsPhase c s)
  | .foldbackLeave c, s => .inl (execFoldbackLeave_keepsPhase c s)
  | .positionCount c, s => .inl (execPositionCount_keepsPhase c s)
  | .presenceChange p active _, s => .inl (keepsPhase_ite_next _ (takePresence_phase p active s))
  | .presenceTimerEnd p, s => .inl (execPresenceTimerEnd_keepsPhase p s)
  | .identityReadEnd p code, s => .inl (execIdentityReadEnd_keepsPhase p code s)
  | .positionTrip p e, s => .inl (execPositionTrip_keepsPhase p e s)
  | .captureTrigger c, s => .inl (keepsPhase_ite_next _ (takeTrigger_phase _ c s))
  | .journalRecord sender, s => .inl (execJournalRecord_keepsPhase sender s)
  | .statusRewrite fields, s => .inl (execStatusRewrite_keepsPhase fields s)
  | .statusRewriteEnd, s => .inl (execStatusRewriteEnd_keepsPhase s)
  | .powerOnReset _ _, _ | .controllerReset _ _, _ | .backplaneResetRelease _, _ | .initializationEnd, _
  | .supplyLoss, _ => .inr (by simp [MayMovePhase])

/-! ## The resets (R159, R160) -/

@[simp] theorem leaveReset_phase (powerOn : Bool) (pins : Pins) (s : State) :
    (leaveReset powerOn pins s).phase = .initializing := rfl

@[simp] theorem leaveReset_chans (powerOn : Bool) (pins : Pins) (s : State) :
    (leaveReset powerOn pins s).chans = Vector.replicate 4 ⟨.off, none, none, false, true⟩ := rfl

@[simp] theorem leaveReset_handler (powerOn : Bool) (pins : Pins) (s : State) :
    (leaveReset powerOn pins s).handler = ⟨none, false, false⟩ := rfl

@[simp] theorem enterReset_phase (powerOn : Bool) (s : State) : (enterReset powerOn s).phase = .held powerOn := rfl

@[simp] theorem enterReset_chans (powerOn : Bool) (s : State) :
    (enterReset powerOn s).chans = Vector.replicate 4 ⟨.off, none, none, false, true⟩ := rfl

/-- R159: a power-on reset with the backplane line held is not left. -/
theorem exec_powerOnReset_lineHeld (pins : Pins) (s : State) :
    exec (.powerOnReset true pins) s = .next (enterReset true s) := rfl

/-- R159: the backplane line becoming held resets a card that is out of reset, and keeps it there. -/
theorem exec_controllerReset_backplaneLine {s : State} (pins : Pins)
    (hphase : s.phase = .initializing ∨ s.phase = .ready) :
    exec (.controllerReset .backplaneLine pins) s = .next (enterReset false s) := by
  rcases hphase with h | h <;> simp [exec, execControllerReset, takeControllerReset, h]

/-- R159: a write to RESET_CTL with bit 0 clear is no reset, in any phase. -/
theorem exec_controllerReset_of_bit_clear {v : Word} (pins : Pins) (s : State) (hbit : v.getLsbD 0 = false) :
    exec (.controllerReset (.resetCtlWrite v) pins) s = .next s :=
  if_neg (ne_true_of_eq_false hbit)

/-- R159: a card held in reset takes no controller reset. -/
theorem exec_controllerReset_of_held {s : State} {powerOn : Bool} (cause : ResetCause) (pins : Pins)
    (h : s.phase = .held powerOn) : exec (.controllerReset cause pins) s = .next s := by
  have hsame : takeControllerReset cause pins s = s := by simp [takeControllerReset, h]
  cases cause with
  | backplaneLine => simp [exec, execControllerReset, hsame]
  | resetCtlWrite v =>
    by_cases hbit : v.getLsbD 0 = true
    · exact (if_pos hbit).trans (congrArg _ hsame)
    · exact if_neg hbit

/-- R162: initialization does not end, having not begun, while the card is held in reset. -/
theorem exec_initializationEnd_of_held {s : State} {powerOn : Bool} (h : s.phase = .held powerOn) :
    exec .initializationEnd s = .next s := by
  simp [exec, execInitializationEnd, h]

/-- R159: a card held in reset stays in it under every command but supply coming up, the release of the line and the
loss of supply. -/
theorem exec_keepsPhase_of_held {s : State} {powerOn : Bool} (cmd : Instr) (h : s.phase = .held powerOn)
    (hsupply : cmd ≠ .supplyLoss) (hpower : ∀ b q, cmd ≠ .powerOnReset b q)
    (hrelease : ∀ q, cmd ≠ .backplaneResetRelease q) : KeepsPhase s (exec cmd s) := by
  rcases exec_keepsPhase_or cmd s with hkeep | ⟨b, q, hc⟩ | ⟨cause, q, rfl⟩ | ⟨q, hc⟩ | rfl | hc
  · exact hkeep
  · exact absurd hc (hpower b q)
  · rw [exec_controllerReset_of_held cause q h]; rfl
  · exact absurd hc (hrelease q)
  · rw [exec_initializationEnd_of_held h]; rfl
  · exact absurd hc hsupply

/-- Settles O3: each reset and the release answer `enterReset` or `leaveReset`, and no other command moves the phase
of a card held in reset. -/
theorem resetsAreTaken : Obligations.ResetsAreTaken := by
  intro pins s
  refine ⟨?powerOn, ?powerOnHeld, fun v hbit hphase => ?resetCtl, fun hphase => ?backplaneLine,
    fun cmd t powerOn hheld hsupply hpower hrelease ht => ?staysHeld, fun powerOn hheld => ?release,
    fun v hbit => ⟨rfl, exec_controllerReset_of_bit_clear pins s hbit⟩⟩
  case powerOn => exact ⟨_, exec_powerOnReset_released pins s, leaveReset_phase true pins s⟩
  case powerOnHeld => exact ⟨_, exec_powerOnReset_lineHeld pins s, enterReset_phase true s⟩
  case resetCtl =>
    exact ⟨_, exec_controllerReset_resetCtlWrite pins hbit hphase, leaveReset_phase false pins s,
      leaveReset_now false pins s, leaveReset_chans false pins s⟩
  case backplaneLine =>
    exact ⟨_, exec_controllerReset_backplaneLine pins hphase, enterReset_phase false s, enterReset_chans false s⟩
  case staysHeld =>
    have hkeep := exec_keepsPhase_of_held cmd hheld hsupply hpower hrelease
    rw [ht, keepsPhase_next] at hkeep
    exact hkeep.trans hheld
  case release => exact ⟨_, exec_backplaneResetRelease_of_held pins hheld, leaveReset_phase powerOn pins s⟩

/-! ## Writes to ATTN (R154) -/

theorem exec_attn_of_not_ready {s : State} (v : Word) (h : s.phase ≠ .ready) : exec (.attn v) s = .next s := by
  cases hphase : s.phase with
  | ready => exact absurd hphase h
  | unpowered | held powerOn | initializing => simp [exec, execAttn, hphase]

theorem exec_attn_of_idle {s : State} (v : Word) (h : s.phase = .ready) (hidle : s.handler.sweep = none) :
    exec (.attn v) s = .next (s.setHandler { s.handler with sweep := some ⟨0, 0⟩ }) := by
  simp [exec, execAttn, h, hidle]

theorem exec_attn_of_sweeping {s : State} {w : Sweep} (v : Word) (h : s.phase = .ready)
    (hsweep : s.handler.sweep = some w) :
    exec (.attn v) s = .next (s.setHandler { s.handler with again := true }) := by
  simp [exec, execAttn, h, hsweep]

/-- Section 11.2: bit 2 of STATUS is SWEEP_BUSY. -/
theorem statusRegister_sweepBusy {s : State} (h : s.phase = .ready) :
    (statusRegister s).getLsbD 2 = s.handler.sweep.isSome := by
  simp only [statusRegister, h, BitVec.getLsbD_append]
  simp

/-- Settles O8: the handler after `leaveReset` is idle, and a write to ATTN has one equation for each state of the
sweep. -/
theorem attnIsTaken : Obligations.AttnIsTaken := by
  intro v s
  refine ⟨fun pins => ⟨?powerOn, fun x hbit hphase => ?resetCtl, fun powerOn hheld => ?release⟩,
    exec_attn_of_not_ready v, fun hready hidle => ?idle, fun w hready hsweep => exec_attn_of_sweeping v hready hsweep⟩
  case powerOn => exact ⟨_, exec_powerOnReset_released pins s, leaveReset_handler true pins s⟩
  case resetCtl =>
    exact ⟨_, exec_controllerReset_resetCtlWrite pins hbit hphase, leaveReset_handler false pins s⟩
  case release => exact ⟨_, exec_backplaneResetRelease_of_held pins hheld, leaveReset_handler powerOn pins s⟩
  case idle => exact ⟨_, exec_attn_of_idle v hready hidle, rfl, statusRegister_sweepBusy hready⟩

end Sys2Proof.Machine

/-! What each operation and each command can change, said once: the parts of the card that a command may touch. A law
that reads other parts is kept by that command with nothing more to prove. -/

namespace Sys2Proof.Machine

/-! ## Parts of the card -/

/-- The parts of the state that the laws tell apart: each block, the entries of the limit set apart from the active
set, the deliveries by lane, and what the laws read of a larger part. -/
inductive Part where
  | phase | now | mem | initialized | scanner | interlock | monitors | entries | settings | load | chans | profiles
  | strikes | levels | ceilings | activeSets | arbiter | positions | captures | handler | journal | status | irqEnable
  | links | fromScanner | foldback | counts | trips | pending

/-- The part stands in `t` as it stands in `s`. -/
def Part.Same (s t : State) : Part → Prop
  | .phase => t.phase = s.phase
  | .now => t.now = s.now
  | .mem => t.mem = s.mem
  | .initialized => t.initialized = s.initialized
  | .scanner => t.scanner = s.scanner
  | .interlock => t.scanner.interlockClosed = s.scanner.interlockClosed
  | .monitors => t.monitors = s.monitors
  | .entries => t.evaluator.entries = s.evaluator.entries
  | .settings => t.evaluator.settings = s.evaluator.settings
  | .load => t.evaluator.load = s.evaluator.load
  | .chans => t.chans = s.chans
  | .profiles => ∀ c, (t.chan c).profile = (s.chan c).profile
  | .strikes => t.strikes = s.strikes
  | .levels => ∀ c, { t.resolver c with activeSet := [] } = { s.resolver c with activeSet := [] }
  | .ceilings => ∀ c, (t.resolver c).positions = (s.resolver c).positions
  | .activeSets => ∀ c, (t.resolver c).activeSet = (s.resolver c).activeSet
  | .arbiter => t.arbiter = s.arbiter
  | .positions => t.positions = s.positions
  | .captures => t.captures = s.captures
  | .handler => t.handler = s.handler
  | .journal => t.journal = s.journal
  | .status => t.status = s.status
  | .irqEnable => t.irqEnable = s.irqEnable
  | .links => t.links = s.links
  | .fromScanner => ∀ c, (t.link c).fromScanner = (s.link c).fromScanner
  | .foldback => ∀ c, (t.link c).foldback = (s.link c).foldback
  | .counts => ∀ c, (t.link c).counts = (s.link c).counts
  | .trips => t.trips = s.trips
  | .pending => t.pending = s.pending

theorem Part.Same.refl (p : Part) (s : State) : p.Same s s := by cases p <;> simp [Part.Same]

theorem Part.Same.symm {p : Part} {s t : State} (h : p.Same s t) : p.Same t s := by
  cases p <;> simp only [Part.Same] at h ⊢
  all_goals first | exact h.symm | exact fun c => (h c).symm

theorem Part.Same.trans {p : Part} {s t u : State} (h : p.Same s t) (k : p.Same t u) : p.Same s u := by
  cases p <;> simp only [Part.Same] at h k ⊢
  all_goals first | exact k.trans h | exact fun c => (k c).trans (h c)

/-- Every part stands as before but those listed. -/
def SameBut (ps : List Part) (s t : State) : Prop := ∀ p, p ∉ ps → p.Same s t

variable {ps : List Part} {s t u : State}

@[simp] theorem SameBut.refl (ps : List Part) (s : State) : SameBut ps s s := fun p _ => Part.Same.refl p s

theorem SameBut.trans (h : SameBut ps s t) (k : SameBut ps t u) : SameBut ps s u :=
  fun p hp => (h p hp).trans (k p hp)

/-- A change of listed parts does not show. -/
theorem SameBut.iff_of (h : SameBut ps t u) : SameBut ps s u ↔ SameBut ps s t :=
  ⟨fun k p hp => (k p hp).trans (h p hp).symm, fun k => k.trans h⟩

theorem SameBut.mono {qs : List Part} (h : SameBut ps s t) (hsub : ∀ p ∈ ps, p ∈ qs) : SameBut qs s t :=
  fun p hp => h p (fun k => hp (hsub p k))

theorem SameBut.forEach {α : Type} {f : α → State → State} (l : List α) (h : ∀ x t, SameBut ps t (f x t)) :
    SameBut ps s (forEach l f s) :=
  forEach_keeps (SameBut ps s) f l s (fun x _ t ht => ht.trans (h x t)) (SameBut.refl ps s)

@[simp] theorem sameBut_forEach {α : Type} {f : α → State → State} (l : List α) (h : ∀ x t, SameBut ps t (f x t)) :
    SameBut ps s (Machine.forEach l f t) ↔ SameBut ps s t :=
  SameBut.iff_of (SameBut.forEach l h)

/-! ## The updates of State -/

/-- A part that an update leaves alone, or a listed one. -/
theorem SameBut.of_cases (h : ∀ p, p.Same s t ∨ p ∈ ps) : SameBut ps s t := fun p hp => (h p).resolve_right hp

section Updates

@[simp] theorem sameBut_setMem (x : Memory) (h : .mem ∈ ps) : SameBut ps s (t.setMem x) ↔ SameBut ps s t :=
  SameBut.iff_of (.of_cases fun p => by cases p <;> simp [Part.Same, h])

@[simp] theorem sameBut_write (a : Nat) (bs : List Byte) (h : .mem ∈ ps) :
    SameBut ps s (t.write a bs) ↔ SameBut ps s t :=
  sameBut_setMem _ h

@[simp] theorem sameBut_setScanner (x : Scanner) (h : .scanner ∈ ps)
    (hi : x.interlockClosed = t.scanner.interlockClosed ∨ .interlock ∈ ps) :
    SameBut ps s (t.setScanner x) ↔ SameBut ps s t :=
  SameBut.iff_of (.of_cases fun p => by cases p <;> simp [Part.Same, h, hi])

@[simp] theorem sameBut_setMonitor (c : Channel) (x : MarkMonitor) (h : .monitors ∈ ps) :
    SameBut ps s (t.setMonitor c x) ↔ SameBut ps s t :=
  SameBut.iff_of (.of_cases fun p => by cases p <;> simp [Part.Same, h])

@[simp] theorem sameBut_setEvaluator (x : Evaluator) (he : x.entries = t.evaluator.entries ∨ .entries ∈ ps)
    (hs : x.settings = t.evaluator.settings ∨ .settings ∈ ps) (hl : x.load = t.evaluator.load ∨ .load ∈ ps) :
    SameBut ps s (t.setEvaluator x) ↔ SameBut ps s t :=
  SameBut.iff_of (.of_cases fun p => by cases p <;> simp [Part.Same, he, hs, hl])

@[simp] theorem sameBut_setEntry (i : EntryIx) (x : LiveEntry) (h : .entries ∈ ps) :
    SameBut ps s (t.setEntry i x) ↔ SameBut ps s t :=
  sameBut_setEvaluator _ (.inr h) (.inl rfl) (.inl rfl)

@[simp] theorem sameBut_setChan (c : Channel) (x : ChannelController) (h : .chans ∈ ps)
    (hp : x.profile = (t.chan c).profile ∨ .profiles ∈ ps) : SameBut ps s (t.setChan c x) ↔ SameBut ps s t := by
  refine SameBut.iff_of (.of_cases fun p => ?_)
  cases p
  case profiles =>
    refine hp.imp_left fun hp d => ?_
    by_cases hd : d = c
    · subst hd; simpa using hp
    · simp [hd]
  all_goals simp [Part.Same, h]

@[simp] theorem sameBut_setStrike (c : Channel) (x : StrikeAccounting) (h : .strikes ∈ ps) :
    SameBut ps s (t.setStrike c x) ↔ SameBut ps s t :=
  SameBut.iff_of (.of_cases fun p => by cases p <;> simp [Part.Same, h])

@[simp] theorem sameBut_setResolver (c : Channel) (x : DriveResolver)
    (hl : { x with activeSet := [] } = { t.resolver c with activeSet := [] } ∨ .levels ∈ ps)
    (hc : x.positions = (t.resolver c).positions ∨ .ceilings ∈ ps)
    (ha : x.activeSet = (t.resolver c).activeSet ∨ .activeSets ∈ ps) :
    SameBut ps s (t.setResolver c x) ↔ SameBut ps s t := by
  refine SameBut.iff_of (.of_cases fun p => ?_)
  have at_channel : ∀ {β : Type} (g : DriveResolver → β), g x = g (t.resolver c) →
      ∀ d, g ((t.setResolver c x).resolver d) = g (t.resolver d) := fun g hg d => by
    by_cases hd : d = c
    · subst hd; simpa using hg
    · simp [hd]
  cases p
  case levels => exact hl.imp_left (at_channel fun r => { r with activeSet := [] })
  case ceilings => exact hc.imp_left (at_channel (·.positions))
  case activeSets => exact ha.imp_left (at_channel (·.activeSet))
  all_goals simp [Part.Same]

@[simp] theorem sameBut_setArbiter (x : Arbiter) (h : .arbiter ∈ ps) :
    SameBut ps s (t.setArbiter x) ↔ SameBut ps s t :=
  SameBut.iff_of (.of_cases fun p => by cases p <;> simp [Part.Same, h])

@[simp] theorem sameBut_setPosition (p : PositionIx) (x : PositionRecord) (h : .positions ∈ ps) :
    SameBut ps s (t.setPosition p x) ↔ SameBut ps s t :=
  SameBut.iff_of (.of_cases fun p => by cases p <;> simp [Part.Same, h])

@[simp] theorem sameBut_setCaptures (x : CaptureUnit) (h : .captures ∈ ps) :
    SameBut ps s (t.setCaptures x) ↔ SameBut ps s t :=
  SameBut.iff_of (.of_cases fun p => by cases p <;> simp [Part.Same, h])

@[simp] theorem sameBut_setBuffer (b : BufferIx) (x : CaptureBuffer) (h : .captures ∈ ps) :
    SameBut ps s (t.setBuffer b x) ↔ SameBut ps s t :=
  sameBut_setCaptures _ h

@[simp] theorem sameBut_setHandler (x : RequestHandler) (h : .handler ∈ ps) :
    SameBut ps s (t.setHandler x) ↔ SameBut ps s t :=
  SameBut.iff_of (.of_cases fun p => by cases p <;> simp [Part.Same, h])

@[simp] theorem sameBut_setJournal (x : JournalWriter) (h : .journal ∈ ps) :
    SameBut ps s (t.setJournal x) ↔ SameBut ps s t :=
  SameBut.iff_of (.of_cases fun p => by cases p <;> simp [Part.Same, h])

@[simp] theorem sameBut_setStatus (x : StatusWriter) (h : .status ∈ ps) :
    SameBut ps s (t.setStatus x) ↔ SameBut ps s t :=
  SameBut.iff_of (.of_cases fun p => by cases p <;> simp [Part.Same, h])

@[simp] theorem sameBut_setTrips (x : List TripDelivery) (h : .trips ∈ ps) :
    SameBut ps s (t.setTrips x) ↔ SameBut ps s t :=
  SameBut.iff_of (.of_cases fun p => by cases p <;> simp [Part.Same, h])

@[simp] theorem sameBut_setLink (c : Channel) (x : ChannelLinks) (h : .links ∈ ps)
    (hs : x.fromScanner = (t.link c).fromScanner ∨ .fromScanner ∈ ps)
    (hf : x.foldback = (t.link c).foldback ∨ .foldback ∈ ps) (hc : x.counts = (t.link c).counts ∨ .counts ∈ ps) :
    SameBut ps s (t.setLink c x) ↔ SameBut ps s t := by
  refine SameBut.iff_of (.of_cases fun p => ?_)
  have at_channel : ∀ {β : Type} (g : ChannelLinks → β), g x = g (t.link c) →
      ∀ d, g ((t.setLink c x).link d) = g (t.link d) := fun g hg d => by
    by_cases hd : d = c
    · subst hd; simpa using hg
    · simp [hd]
  cases p
  case fromScanner => exact hs.imp_left (at_channel (·.fromScanner))
  case foldback => exact hf.imp_left (at_channel (·.foldback))
  case counts => exact hc.imp_left (at_channel (·.counts))
  all_goals simp [Part.Same, h]

end Updates
end Sys2Proof.Machine


/-! What each operation leaves alone: every part of the card but those of its footprint. One lemma for each operation,
in the order of the model's blocks. -/

namespace Sys2Proof.Machine

variable {ps : List Part} {s t : State}

/-! ## Records and deliveries -/

@[simp] theorem sameBut_sendRecord (sender : Sender) (after : Option Stamp) (awaits : Bool) (r : Record)
    (h : .journal ∈ ps) : SameBut ps s (sendRecord sender after awaits r t) ↔ SameBut ps s t := by
  simp [sendRecord, h]

@[simp] theorem sameBut_sendChannel (c : Channel) (after : Option Stamp) (r : Record) (h : .journal ∈ ps) :
    SameBut ps s (sendChannel c after r t) ↔ SameBut ps s t := by
  simp [sendChannel, h]

@[simp] theorem sameBut_recordChange (c : Channel) (after : Option Stamp) (h : .journal ∈ ps) :
    SameBut ps s (recordChange c after t) ↔ SameBut ps s t := by
  simp [recordChange, h]

@[simp] theorem sameBut_recordPosition (p : PositionIx) (after : Option Stamp) (condition : Option EntryIx)
    (value : Option Nat) (h : .journal ∈ ps) :
    SameBut ps s (recordPosition p after condition value t) ↔ SameBut ps s t := by
  simp [recordPosition, h]

@[simp] theorem sameBut_deliverScanner (c : Channel) (e : ScannerEvent) (h : [.links, .fromScanner] ⊆ ps) :
    SameBut ps s (deliverScanner c e t) ↔ SameBut ps s t := by
  simp only [List.cons_subset] at h
  simp [deliverScanner, h]

@[simp] theorem sameBut_deliverEvaluator (c : Channel) (e : EvaluatorEvent) (h : .links ∈ ps) :
    SameBut ps s (deliverEvaluator c e t) ↔ SameBut ps s t := by
  simp [deliverEvaluator, h]

@[simp] theorem sameBut_deliverFoldback (c : Channel) (d : FoldbackDelivery) (h : [.links, .foldback] ⊆ ps) :
    SameBut ps s (deliverFoldback c d t) ↔ SameBut ps s t := by
  simp only [List.cons_subset] at h
  simp [deliverFoldback, h]

@[simp] theorem sameBut_deliverExhausted (c : Channel) (h : .links ∈ ps) :
    SameBut ps s (deliverExhausted c t) ↔ SameBut ps s t := by
  simp [deliverExhausted, h]

@[simp] theorem sameBut_tellCompletion (c : Channel) (h : .links ∈ ps) :
    SameBut ps s (tellCompletion c t) ↔ SameBut ps s t := by
  simp [tellCompletion, h]

@[simp] theorem sameBut_deliverPreemption (c : Channel) (h : .links ∈ ps) :
    SameBut ps s (deliverPreemption c t) ↔ SameBut ps s t := by
  simp [deliverPreemption, h]

@[simp] theorem sameBut_deliverMark (c : Channel) (h : .links ∈ ps) :
    SameBut ps s (deliverMark c t) ↔ SameBut ps s t := by
  simp [deliverMark, h]

@[simp] theorem sameBut_reportStep (c : Channel) (h : .links ∈ ps) :
    SameBut ps s (reportStep c t) ↔ SameBut ps s t := by
  simp [reportStep, h]

@[simp] theorem sameBut_deliverCount (c : Channel) (n : Nat) (h : [.links, .counts] ⊆ ps) :
    SameBut ps s (deliverCount c n t) ↔ SameBut ps s t := by
  simp only [List.cons_subset] at h
  simp [deliverCount, h]

@[simp] theorem sameBut_deliverTrip (p : PositionIx) (e : EntryIx) (h : .trips ∈ ps) :
    SameBut ps s (deliverTrip p e t) ↔ SameBut ps s t := by
  simp [deliverTrip, h]

/-! ## The Capture Unit, the Journal Writer and the Status Writer -/

@[simp] theorem sameBut_writeCaptureHeader (b : BufferIx) (h : .mem ∈ ps) :
    SameBut ps s (writeCaptureHeader b t) ↔ SameBut ps s t := by
  simp [writeCaptureHeader, h]

@[simp] theorem sameBut_changeBuffer (b : BufferIx) (x : CaptureBuffer) (h : [.mem, .captures] ⊆ ps) :
    SameBut ps s (changeBuffer b x t) ↔ SameBut ps s t := by
  simp only [List.cons_subset] at h
  simp [changeBuffer, h]

@[simp] theorem sameBut_takeTrigger (o : TriggerOutcome) (c : Channel) (h : [.mem, .captures] ⊆ ps) :
    SameBut ps s (takeTrigger o c t) ↔ SameBut ps s t := by
  simp only [List.cons_subset] at h
  cases o <;> simp [takeTrigger, startCapture, joinCapture, h]

@[simp] theorem sameBut_finishFill (h : [.mem, .captures] ⊆ ps) : SameBut ps s (finishFill t) ↔ SameBut ps s t := by
  unfold finishFill
  split
  · rfl
  · split
    · exact sameBut_changeBuffer _ _ h
    · rfl

@[simp] theorem sameBut_fillCapture (j : CapturedIx) (value : Nat) (h : [.mem, .captures] ⊆ ps) :
    SameBut ps s (fillCapture j value t) ↔ SameBut ps s t := by
  simp only [List.cons_subset] at h
  unfold fillCapture
  split
  · rfl
  · simp only []
    split <;> simp [h]

@[simp] theorem sameBut_writeTriggerSequence (b : BufferIx) (q : Seq) (h : [.mem, .captures] ⊆ ps) :
    SameBut ps s (writeTriggerSequence b q t) ↔ SameBut ps s t := by
  simp only [List.cons_subset] at h
  simp [writeTriggerSequence, h]

@[simp] theorem sameBut_holdCapture (a : Arguments) (h : [.mem, .captures] ⊆ ps) :
    SameBut ps s (holdCapture a t).1 ↔ SameBut ps s t := by
  simp only [List.cons_subset] at h
  unfold holdCapture
  split
  · rfl
  · split <;> simp [h]

@[simp] theorem sameBut_releaseCapture (a : Arguments) (h : [.mem, .captures] ⊆ ps) :
    SameBut ps s (releaseCapture a t).1 ↔ SameBut ps s t := by
  simp only [List.cons_subset] at h
  unfold releaseCapture
  split <;> simp [h]

@[simp] theorem sameBut_writeJournalHeader (h : .mem ∈ ps) :
    SameBut ps s (writeJournalHeader t) ↔ SameBut ps s t := by
  simp [writeJournalHeader, h]

@[simp] theorem sameBut_numberRecord (r : Record) (h : [.mem, .captures, .journal] ⊆ ps) :
    SameBut ps s (numberRecord r t) ↔ SameBut ps s t := by
  simp only [List.cons_subset] at h
  unfold numberRecord
  simp only []
  split <;> simp [h]

@[simp] theorem sameBut_numberHeldRecords (h : [.mem, .captures, .journal] ⊆ ps) :
    SameBut ps s (numberHeldRecords t) ↔ SameBut ps s t := by
  simp only [List.cons_subset] at h
  simp [numberHeldRecords, h]

@[simp] theorem sameBut_bumpUpdateCount (h : [.mem, .status] ⊆ ps) :
    SameBut ps s (bumpUpdateCount t) ↔ SameBut ps s t := by
  simp only [List.cons_subset] at h
  simp [bumpUpdateCount, h]

@[simp] theorem sameBut_copyField (k : Nat) (h : [.mem, .status] ⊆ ps) :
    SameBut ps s (copyField k t) ↔ SameBut ps s t := by
  simp only [List.cons_subset] at h
  unfold copyField
  split
  · split <;> simp [h]
  · rfl

/-! ## The Arbiter -/

@[simp] theorem sameBut_joinTail (c : Channel) (h : .arbiter ∈ ps) :
    SameBut ps s (joinTail c t) ↔ SameBut ps s t := by
  simp [joinTail_eq, h]

@[simp] theorem sameBut_joinHead (c : Channel) (h : .arbiter ∈ ps) :
    SameBut ps s (joinHead c t) ↔ SameBut ps s t := by
  simp [joinHead, h]

@[simp] theorem sameBut_releaseEngine (c : Channel) (h : .arbiter ∈ ps) :
    SameBut ps s (releaseEngine c t) ↔ SameBut ps s t := by
  simp [releaseEngine_eq, h]

@[simp] theorem sameBut_offerGrant (h : .arbiter ∈ ps) : SameBut ps s (offerGrant t) ↔ SameBut ps s t := by
  simp [offerGrant_eq, h]

@[simp] theorem sameBut_holdEngine (c : Channel) (h : .arbiter ∈ ps) :
    SameBut ps s (holdEngine c t) ↔ SameBut ps s t := by
  simp [holdEngine, leaveQueue, h]

@[simp] theorem sameBut_setState (c : Channel) (st : ChannelState) (h : .chans ∈ ps) :
    SameBut ps s (setState c st t) ↔ SameBut ps s t := by
  simp [setState, h]

@[simp] theorem sameBut_cut (c : Channel) (h : .levels ∈ ps) : SameBut ps s (cut c t) ↔ SameBut ps s t := by
  simp [cut_eq, h]

@[simp] theorem sameBut_dropRamp (c : Channel) (h : .levels ∈ ps) :
    SameBut ps s (dropRamp c t) ↔ SameBut ps s t := by
  simp [dropRamp, h]

/-! ## Strike Accounting and the time counter -/

@[simp] theorem sameBut_prune (c : Channel) (h : .strikes ∈ ps) : SameBut ps s (prune c t) ↔ SameBut ps s t := by
  simp [prune, h]

@[simp] theorem sameBut_appendStrike (c : Channel) (h : .strikes ∈ ps) :
    SameBut ps s (appendStrike c t) ↔ SameBut ps s t := by
  simp [appendStrike, h]

@[simp] theorem sameBut_writeConfirmation (c : Channel) (h : .mem ∈ ps) :
    SameBut ps s (writeConfirmation c t) ↔ SameBut ps s t := by
  simp [writeConfirmation, h]

@[simp] theorem sameBut_postConfirmation (c : Channel) (h : [.mem, .strikes] ⊆ ps) :
    SameBut ps s (postConfirmation c t) ↔ SameBut ps s t := by
  simp only [List.cons_subset] at h
  simp [postConfirmation, h]

@[simp] theorem sameBut_endConfirmation (c : Channel) (h : [.mem, .strikes] ⊆ ps) :
    SameBut ps s (endConfirmation c t) ↔ SameBut ps s t := by
  simp only [List.cons_subset] at h
  unfold endConfirmation
  split <;> simp [h]

@[simp] theorem sameBut_verdict (c : Channel) (extended : Bool) (after : Option Stamp)
    (h : [.mem, .strikes, .chans, .arbiter, .journal] ⊆ ps) :
    SameBut ps s (verdict c extended after t) ↔ SameBut ps s t := by
  simp only [List.cons_subset] at h
  rcases verdict_cases c extended after t with hv | hv <;> simp [hv, h]

@[simp] theorem sameBut_confirmRestrike (a : Arguments) (h : [.mem, .strikes, .chans, .arbiter, .journal] ⊆ ps) :
    SameBut ps s (confirmRestrike a t).1 ↔ SameBut ps s t := by
  simp only [List.cons_subset] at h
  unfold confirmRestrike
  split
  · rfl
  · split_ifs <;> simp [acceptAnswer, declineAnswer, h]

theorem sameBut_setNow (x : Time) (h : .now ∈ ps) : SameBut ps s { t with now := x } ↔ SameBut ps s t :=
  SameBut.iff_of (.of_cases fun p => by
    cases p <;> simp [Part.Same, h, State.chan, State.resolver, State.link])

@[simp] theorem sameBut_wrapCounter (h : [.now, .strikes] ⊆ ps) :
    SameBut ps s (wrapCounter t) ↔ SameBut ps s t := by
  simp only [List.cons_subset] at h
  simp [wrapCounter, h, sameBut_setNow]

@[simp] theorem sameBut_tick (h : [.now, .strikes] ⊆ ps) : SameBut ps s (tick t) ↔ SameBut ps s t := by
  unfold tick
  split
  · exact sameBut_wrapCounter h
  · exact sameBut_setNow _ (List.cons_subset.mp h).1

/-! ## The Drive Resolvers -/

@[simp] theorem sameBut_rampStep (c : Channel) (h : [.arbiter, .levels] ⊆ ps) :
    SameBut ps s (rampStep c t) ↔ SameBut ps s t := by
  simp only [List.cons_subset] at h
  simp [rampStep, h]

@[simp] theorem sameBut_foldbackStep (c : Channel) (h : [.levels, .links] ⊆ ps) :
    SameBut ps s (foldbackStep c t) ↔ SameBut ps s t := by
  simp only [List.cons_subset] at h
  unfold foldbackStep
  simp only []
  split <;> simp [h]

@[simp] theorem sameBut_foldbackWork (c : Channel) (h : [.levels, .links] ⊆ ps) :
    SameBut ps s (foldbackWork c t) ↔ SameBut ps s t := by
  simp only [List.cons_subset] at h
  unfold foldbackWork
  split_ifs
  · rfl
  · simp [h]
  · split <;> simp [recoveryStep, h]

@[simp] theorem sameBut_raise (c : Channel) (h : .levels ∈ ps) : SameBut ps s (raise c t) ↔ SameBut ps s t := by
  unfold raise
  split <;> simp [h]

@[simp] theorem sameBut_completionTest (c : Channel) (h : .links ∈ ps) :
    SameBut ps s (completionTest c t) ↔ SameBut ps s t := by
  unfold completionTest
  split <;> simp [h]

@[simp] theorem sameBut_markWork (c : Channel) (h : [.arbiter, .levels, .links] ⊆ ps) :
    SameBut ps s (markWork c t) ↔ SameBut ps s t := by
  simp only [List.cons_subset] at h
  unfold markWork
  simp only []
  split_ifs <;> simp [h]

@[simp] theorem sameBut_changeEntry (c : Channel) (r : DriveResolver) (h : [.levels, .links] ⊆ ps)
    (hc : r.positions = (t.resolver c).positions ∨ .ceilings ∈ ps) (ha : r.activeSet = (t.resolver c).activeSet) :
    SameBut ps s (changeEntry c r t) ↔ SameBut ps s t := by
  simp only [List.cons_subset] at h
  unfold changeEntry
  split <;> simp [h, hc, ha]

@[simp] theorem sameBut_setTarget (a : Arguments) (h : [.levels, .links] ⊆ ps) :
    SameBut ps s (setTarget a t).1 ↔ SameBut ps s t := by
  simp only [List.cons_subset] at h
  unfold setTarget
  split
  · rfl
  · split_ifs <;> simp [h]

/-! ## The Channel Controllers -/

@[simp] theorem sameBut_leaveAir (c : Channel) (h : [.chans, .levels, .arbiter] ⊆ ps) :
    SameBut ps s (leaveAir c t) ↔ SameBut ps s t := by
  simp only [List.cons_subset] at h
  simp [leaveAir_eq, h]

@[simp] theorem sameBut_stopHoldoff (c : Channel) (h : .chans ∈ ps) :
    SameBut ps s (stopHoldoff c t) ↔ SameBut ps s t := by
  simp [stopHoldoff, h]

@[simp] theorem sameBut_depart (c : Channel) (h : [.mem, .strikes, .chans, .levels, .arbiter] ⊆ ps) :
    SameBut ps s (depart c t) ↔ SameBut ps s t := by
  simp only [List.cons_subset] at h
  simp [depart, h]

@[simp] theorem sameBut_strikeVerdict (c : Channel) (h : .chans ∈ ps) :
    SameBut ps s (strikeVerdict c t) ↔ SameBut ps s t := by
  simp [strikeVerdict_eq, h]

@[simp] theorem sameBut_takeStrike (c : Channel) (cause : Cause) (after : Option Stamp)
    (h : [.strikes, .chans, .levels, .arbiter, .journal] ⊆ ps) :
    SameBut ps s (takeStrike c cause after t) ↔ SameBut ps s t := by
  simp only [List.cons_subset] at h
  unfold takeStrike
  split <;> simp [liveStrike, mutedStrike, h]

@[simp] theorem sameBut_endHoldoff (c : Channel) (after : Option Stamp)
    (h : [.mem, .strikes, .chans, .arbiter, .journal] ⊆ ps) :
    SameBut ps s (endHoldoff c after t) ↔ SameBut ps s t := by
  simp only [List.cons_subset] at h
  simp [endHoldoff, h]

@[simp] theorem sameBut_extendHoldoff (c : Channel) (h : [.chans, .journal] ⊆ ps) :
    SameBut ps s (extendHoldoff c t) ↔ SameBut ps s t := by
  simp only [List.cons_subset] at h
  simp [extendHoldoff, h]

@[simp] theorem sameBut_askAgain (c : Channel) (after : Option Stamp)
    (h : [.mem, .strikes, .chans, .arbiter, .journal] ⊆ ps) :
    SameBut ps s (askAgain c after t) ↔ SameBut ps s t := by
  unfold askAgain
  split
  · exact sameBut_endHoldoff c after h
  · rfl

@[simp] theorem sameBut_takeLockout (c : Channel) (e : EntryIx) (capture : Bool) (after : Option Stamp)
    (h : [.mem, .strikes, .chans, .levels, .arbiter, .journal] ⊆ ps) :
    SameBut ps s (takeLockout c e capture after t) ↔ SameBut ps s t := by
  simp only [List.cons_subset] at h
  unfold takeLockout
  split <;> simp [h]

@[simp] theorem sameBut_takeOpened (c : Channel) (after : Option Stamp)
    (h : [.mem, .strikes, .chans, .levels, .arbiter, .journal] ⊆ ps) :
    SameBut ps s (takeOpened c after t) ↔ SameBut ps s t := by
  simp only [List.cons_subset] at h
  unfold takeOpened
  split <;> simp [h]

@[simp] theorem sameBut_takeClosed (c : Channel) (after : Option Stamp)
    (h : [.mem, .strikes, .chans, .arbiter, .journal] ⊆ ps) :
    SameBut ps s (takeClosed c after t) ↔ SameBut ps s t := by
  unfold takeClosed
  split
  · exact sameBut_verdict c false after h
  · rfl

@[simp] theorem sameBut_channelOn (a : Arguments) (h : [.chans, .levels, .arbiter, .journal] ⊆ ps) :
    SameBut ps s (channelOn a t).1 ↔ SameBut ps s t := by
  simp only [List.cons_subset] at h
  unfold channelOn
  split
  · rfl
  · split
    · rfl
    · split <;> simp [takeOn, h]

@[simp] theorem sameBut_enterOff (c : Channel) (h : [.strikes, .chans, .levels] ⊆ ps) :
    SameBut ps s (enterOff c t) ↔ SameBut ps s t := by
  simp only [List.cons_subset] at h
  simp [enterOff, h]

@[simp] theorem sameBut_channelOff (a : Arguments) (h : [.mem, .strikes, .chans, .levels, .arbiter, .journal] ⊆ ps) :
    SameBut ps s (channelOff a t).1 ↔ SameBut ps s t := by
  simp only [List.cons_subset] at h
  unfold channelOff
  split
  · rfl
  · split <;> simp [takeOff, h]

@[simp] theorem sameBut_releaseLockout (a : Arguments) (h : [.strikes, .chans, .levels, .journal] ⊆ ps) :
    SameBut ps s (releaseLockout a t).1 ↔ SameBut ps s t := by
  simp only [List.cons_subset] at h
  unfold releaseLockout
  split
  · rfl
  · split_ifs <;> simp [h]

/-! ## The Condition Evaluator -/

@[simp] theorem sameBut_assertedDeliveries (i : EntryIx) (f : ConditionFields) (h : [.links, .foldback, .trips] ⊆ ps) :
    SameBut ps s (assertedDeliveries i f t) ↔ SameBut ps s t := by
  simp only [List.cons_subset] at h
  unfold assertedDeliveries
  split
  case h_4 => split <;> simp [h]
  all_goals simp [h]

@[simp] theorem sameBut_withdrawnDeliveries (i : EntryIx) (f : ConditionFields) (h : [.links, .foldback] ⊆ ps) :
    SameBut ps s (withdrawnDeliveries i f t) ↔ SameBut ps s t := by
  simp only [List.cons_subset] at h
  unfold withdrawnDeliveries
  split <;> simp [h]

@[simp] theorem sameBut_withdrawAction (after : Option Stamp) (i : EntryIx) (f : ConditionFields)
    (value : Option Nat) (replaced : Bool) (h : [.links, .foldback, .journal] ⊆ ps) :
    SameBut ps s (withdrawAction after i f value replaced t) ↔ SameBut ps s t := by
  simp only [List.cons_subset] at h
  simp [withdrawAction, h]

@[simp] theorem sameBut_evaluateEntry (p : Point) (after : Option Stamp) (i : EntryIx)
    (h : [.entries, .links, .foldback, .trips, .journal] ⊆ ps) :
    SameBut ps s (evaluateEntry p after i t) ↔ SameBut ps s t := by
  simp only [List.cons_subset] at h
  unfold evaluateEntry sendClaim assertAction
  simp only []
  split
  · split <;> simp [h]
  · rfl

@[simp] theorem sameBut_evaluate (p : Point) (order : List EntryIx)
    (h : [.entries, .links, .foldback, .trips, .journal] ⊆ ps) :
    SameBut ps s (evaluate p order t) ↔ SameBut ps s t := by
  simp only [List.cons_subset] at h
  simp [evaluate, h]

@[simp] theorem sameBut_clearCondition (a : Arguments) (h : [.entries, .links, .foldback, .journal] ⊆ ps) :
    SameBut ps s (clearCondition a t).1 ↔ SameBut ps s t := by
  simp only [List.cons_subset] at h
  unfold clearCondition
  split
  · rfl
  · simp only []
    split
    · split_ifs <;> simp [h]
    all_goals rfl

@[simp] theorem sameBut_readDrafts (upTo : Nat) (h : .load ∈ ps) :
    SameBut ps s (readDrafts upTo t) ↔ SameBut ps s t := by
  unfold readDrafts
  split <;> simp [h]

@[simp] theorem sameBut_switchEntry (i : EntryIx) (f : ConditionFields)
    (h : [.entries, .links, .foldback, .journal] ⊆ ps) :
    SameBut ps s (switchEntry i f t) ↔ SameBut ps s t := by
  simp only [List.cons_subset] at h
  unfold switchEntry
  simp only []
  split_ifs <;> simp [h]

@[simp] theorem sameBut_switchArc (old new : SiteSettings) (l : ArcLine) (c : Channel)
    (h : [.links, .fromScanner] ⊆ ps) : SameBut ps s (switchArc old new l c t) ↔ SameBut ps s t := by
  simp only [List.cons_subset] at h
  unfold switchArc
  split_ifs <;> simp [h]

@[simp] theorem sameBut_switchArcs (old new : SiteSettings) (lineOrder : List ArcLine)
    (h : [.links, .fromScanner] ⊆ ps) : SameBut ps s (switchArcs old new lineOrder t) ↔ SameBut ps s t := by
  simp only [List.cons_subset] at h
  refine sameBut_forEach _ fun l u => ?_
  split <;> simp [h]

@[simp] theorem sameBut_switchTables (drafts : List ConditionFields) (settings : SiteSettings)
    (lineOrder : List ArcLine) (h : [.entries, .settings, .links, .foldback, .fromScanner, .journal] ⊆ ps) :
    SameBut ps s (switchTables drafts settings lineOrder t) ↔ SameBut ps s t := by
  simp only [List.cons_subset] at h
  simp [switchTables, h]

@[simp] theorem sameBut_endLoad (l : Load) (lineOrder : List ArcLine)
    (h : [.entries, .settings, .load, .links, .foldback, .fromScanner, .journal] ⊆ ps) :
    SameBut ps s (endLoad l lineOrder t).1 ↔ SameBut ps s t := by
  simp only [List.cons_subset] at h
  unfold endLoad
  simp only []
  split <;> simp [h]

/-! ## The Position Monitor -/

@[simp] theorem sameBut_moveTo (p : PositionIx) (st : PositionState) (h : .positions ∈ ps) :
    SameBut ps s (moveTo p st t) ↔ SameBut ps s t := by
  simp [moveTo, h]

@[simp] theorem sameBut_sendCount (c : Channel) (h : [.links, .counts] ⊆ ps) :
    SameBut ps s (sendCount c t) ↔ SameBut ps s t := by
  simp only [List.cons_subset] at h
  simp [sendCount, h]

@[simp] theorem sameBut_moveCounted (p : PositionIx) (st : PositionState) (h : [.positions, .links, .counts] ⊆ ps) :
    SameBut ps s (moveCounted p st t) ↔ SameBut ps s t := by
  simp only [List.cons_subset] at h
  unfold moveCounted
  simp only []
  split <;> simp [h]

@[simp] theorem sameBut_takePresence (p : PositionIx) (active : Bool)
    (h : [.positions, .links, .counts, .journal] ⊆ ps) :
    SameBut ps s (takePresence p active t) ↔ SameBut ps s t := by
  simp only [List.cons_subset] at h
  unfold takePresence
  simp only []
  split <;> simp [loseModule, h]

@[simp] theorem sameBut_startRead (p : PositionIx) (h : .positions ∈ ps) :
    SameBut ps s (startRead p t) ↔ SameBut ps s t := by
  simp [startRead, h]

@[simp] theorem sameBut_endRead (p : PositionIx) (code : Byte) (h : [.positions, .journal] ⊆ ps) :
    SameBut ps s (endRead p code t) ↔ SameBut ps s t := by
  simp only [List.cons_subset] at h
  simp [endRead, h]

@[simp] theorem sameBut_enablePosition (a : Arguments) (h : [.positions, .links, .counts, .journal] ⊆ ps) :
    SameBut ps s (enablePosition a t).1 ↔ SameBut ps s t := by
  simp only [List.cons_subset] at h
  unfold enablePosition
  split
  · rfl
  · split <;> simp [h]

@[simp] theorem sameBut_disablePosition (a : Arguments) (h : [.positions, .links, .counts, .journal] ⊆ ps) :
    SameBut ps s (disablePosition a t).1 ↔ SameBut ps s t := by
  simp only [List.cons_subset] at h
  unfold disablePosition
  split
  · rfl
  · split <;> simp [h]

@[simp] theorem sameBut_takeTrip (p : PositionIx) (e : EntryIx) (after : Option Stamp)
    (h : [.positions, .links, .counts, .journal] ⊆ ps) :
    SameBut ps s (takeTrip p e after t) ↔ SameBut ps s t := by
  simp only [List.cons_subset] at h
  unfold takeTrip
  split <;> simp [h]

@[simp] theorem sameBut_recheckPosition (c : Channel) (f : Profile) (k : Fin 6) (h : [.positions, .journal] ⊆ ps) :
    SameBut ps s (recheckPosition c f k t) ↔ SameBut ps s t := by
  simp only [List.cons_subset] at h
  unfold recheckPosition
  simp only []
  split <;> simp [h]

@[simp] theorem sameBut_loadProfile (a : Arguments)
    (h : [.chans, .profiles, .levels, .ceilings, .positions, .links, .counts, .journal] ⊆ ps) :
    SameBut ps s (loadProfile a t).1 ↔ SameBut ps s t := by
  simp only [List.cons_subset] at h
  unfold loadProfile
  split
  · rfl
  · simp only []
    split
    · rfl
    · split <;> simp [installProfile, recheck, h]

/-! ## The Input Scanner and the Frame Mark Monitors -/

@[simp] theorem sameBut_takeCount (p : Point) (count : Nat) (h : .scanner ∈ ps) :
    SameBut ps s (takeCount p count t) ↔ SameBut ps s t := by
  simp [takeCount, h]

@[simp] theorem sameBut_captureArrival (p : Point) (count : Nat) (h : [.scanner, .mem, .captures] ⊆ ps) :
    SameBut ps s (captureArrival p count t) ↔ SameBut ps s t := by
  simp only [List.cons_subset] at h
  unfold captureArrival
  split <;> simp [pushRing, h]

@[simp] theorem sameBut_setArc (l : ArcLine) (asserted : Bool) (h : .scanner ∈ ps) :
    SameBut ps s (setArc l asserted t) ↔ SameBut ps s t := by
  simp [setArc, h]

@[simp] theorem sameBut_changeInterlock (closed : Bool)
    (h : [.scanner, .interlock, .links, .fromScanner, .journal] ⊆ ps) :
    SameBut ps s (changeInterlock closed t) ↔ SameBut ps s t := by
  simp only [List.cons_subset] at h
  simp [changeInterlock, h]

@[simp] theorem sameBut_setPresent (c : Channel) (present : Bool) (h : [.monitors, .journal] ⊆ ps) :
    SameBut ps s (setPresent c present t) ↔ SameBut ps s t := by
  simp only [List.cons_subset] at h
  unfold setPresent
  split <;> simp [h]

@[simp] theorem sameBut_passMark (c : Channel) (h : [.monitors, .links] ⊆ ps) :
    SameBut ps s (passMark c t) ↔ SameBut ps s t := by
  simp only [List.cons_subset] at h
  simp [passMark, h]

@[simp] theorem sameBut_countMark (c : Channel) (h : .monitors ∈ ps) :
    SameBut ps s (countMark c t) ↔ SameBut ps s t := by
  simp [countMark, h]

/-! ## Requests and initialization -/

@[simp] theorem sameBut_writeArea (area : InitArea) (h : .mem ∈ ps) :
    SameBut ps s (writeArea area t) ↔ SameBut ps s t := by
  cases area <;> simp [writeArea, h]

theorem sameBut_setPhase (x : Phase) (h : .phase ∈ ps) : SameBut ps s { t with phase := x } ↔ SameBut ps s t :=
  SameBut.iff_of (.of_cases fun p => by
    cases p <;> simp [Part.Same, h, State.chan, State.resolver, State.link])

theorem sameBut_setIrqEnable (x : BitVec 4) (h : .irqEnable ∈ ps) :
    SameBut ps s { t with irqEnable := x } ↔ SameBut ps s t :=
  SameBut.iff_of (.of_cases fun p => by
    cases p <;> simp [Part.Same, h, State.chan, State.resolver, State.link])

theorem sameBut_setInitialized (x : List InitArea) (h : .initialized ∈ ps) :
    SameBut ps s { t with initialized := x } ↔ SameBut ps s t :=
  SameBut.iff_of (.of_cases fun p => by
    cases p <;> simp [Part.Same, h, State.chan, State.resolver, State.link])

@[simp] theorem sameBut_initializeArea (area : InitArea) (h : [.mem, .initialized] ⊆ ps) :
    SameBut ps s (initializeArea area t) ↔ SameBut ps s t := by
  simp only [List.cons_subset] at h
  unfold initializeArea
  split
  · exact (sameBut_setInitialized _ h.2.1).trans (sameBut_writeArea area h.1)
  · rfl

@[simp] theorem sameBut_takeTraffic (item : Traffic) (h : [.mem, .initialized, .load] ⊆ ps) :
    SameBut ps s (takeTraffic item t) ↔ SameBut ps s t := by
  simp only [List.cons_subset] at h
  cases item <;> simp [takeTraffic, h]

@[simp] theorem sameBut_finishAreas (h : [.mem, .initialized] ⊆ ps) :
    SameBut ps s (finishAreas t) ↔ SameBut ps s t := by
  simp only [List.cons_subset] at h
  simp [finishAreas, h]

@[simp] theorem sameBut_moveOn (more : Nat) (h : .handler ∈ ps) : SameBut ps s (moveOn more t) ↔ SameBut ps s t := by
  unfold moveOn
  split <;> simp [h]

@[simp] theorem sameBut_writeSlotState (k : SlotIx) (value : Nat) (h : .mem ∈ ps) :
    SameBut ps s (writeSlotState k value t) ↔ SameBut ps s t := by
  simp [writeSlotState, h]

@[simp] theorem sameBut_completeSlot (k : SlotIx) (r : Reply) (h : [.mem, .handler] ⊆ ps) :
    SameBut ps s (completeSlot k r t) ↔ SameBut ps s t := by
  simp only [List.cons_subset] at h
  simp [completeSlot, h]

@[simp] theorem sameBut_beginLoad (k : SlotIx) (h : .load ∈ ps) :
    SameBut ps s (beginLoad k t) ↔ SameBut ps s t := by
  simp [beginLoad, h]

@[simp] theorem sameBut_takeLoad (k : SlotIx) (h : [.mem, .load] ⊆ ps) :
    SameBut ps s (takeLoad k t) ↔ SameBut ps s t := by
  simp only [List.cons_subset] at h
  simp [takeLoad, h]

/-- R152: a served request changes its slot, the handler and what its work changes. -/
theorem sameBut_serve (k : SlotIx) {work : Arguments → State → State × Reply} (h : [.mem, .handler] ⊆ ps)
    (hwork : ∀ a u, SameBut ps s (work a u).1 ↔ SameBut ps s u) :
    SameBut ps s (serve k work t) ↔ SameBut ps s t := by
  simp only [List.cons_subset] at h
  simp [serve, hwork, h]

/-- The parts that some request may change. -/
def requestParts : List Part :=
  [.mem, .handler, .entries, .load, .chans, .profiles, .strikes, .levels, .ceilings, .arbiter, .positions, .captures,
    .journal, .links, .foldback, .counts]

/-- The parts that the work of a request may change: the handler is not among them. -/
def workParts : List Part :=
  [.mem, .entries, .chans, .profiles, .strikes, .levels, .ceilings, .arbiter, .positions, .captures, .journal, .links,
    .foldback, .counts]

theorem sameBut_workOf (kind : Option RequestKind) (a : Arguments) (h : workParts ⊆ ps) :
    SameBut ps s (workOf kind a t).1 ↔ SameBut ps s t := by
  simp only [workParts, List.cons_subset] at h
  unfold workOf
  split <;> simp [refuseKind, h]

end Sys2Proof.Machine


/-! What each command leaves alone, and that every command goes on. -/

namespace Sys2Proof.Machine

/-- The parts that a command may change. -/
def footprint : Instr → List Part
  | .powerOnReset _ _ | .controllerReset _ _ | .backplaneResetRelease _ | .supplyLoss =>
    [.phase, .now, .mem, .initialized, .scanner, .interlock, .monitors, .entries, .settings, .load, .chans, .profiles,
      .strikes, .levels, .ceilings, .activeSets, .arbiter, .positions, .captures, .handler, .journal, .status,
      .irqEnable, .links, .fromScanner, .foldback, .counts, .trips]
  | .initializationEnd => [.phase, .mem, .initialized, .captures, .journal, .status]
  | .attn _ | .sweepEnd => [.handler]
  | .irqEnableWrite _ => [.irqEnable]
  | .registerWriteIgnored _ _ => []
  | .journalReleaseWrite _ => [.mem]
  | .slotStateWrite _ _ _ => [.mem, .initialized, .load]
  | .slotVisit => requestParts
  | .badKind => [.mem, .handler]
  | .loadConditions => [.mem, .load]
  | .loadEnd _ => [.mem, .handler, .entries, .settings, .load, .links, .foldback, .fromScanner, .journal]
  | .clearCondition => [.mem, .handler, .entries, .links, .foldback, .journal]
  | .loadProfile => [.mem, .handler, .chans, .profiles, .levels, .ceilings, .positions, .links, .counts, .journal]
  | .channelOn => [.mem, .handler, .chans, .levels, .arbiter, .journal]
  | .channelOff => [.mem, .handler, .strikes, .chans, .levels, .arbiter, .journal]
  | .setTarget => [.mem, .handler, .levels, .links]
  | .confirmRestrike => [.mem, .handler, .strikes, .chans, .arbiter, .journal]
  | .releaseLockout => [.mem, .handler, .strikes, .chans, .levels, .journal]
  | .enablePosition | .disablePosition => [.mem, .handler, .positions, .links, .counts, .journal]
  | .holdCapture | .releaseCapture => [.mem, .handler, .captures]
  | .sampleArrival _ _ _ => [.mem, .scanner, .captures, .entries, .links, .foldback, .trips, .journal]
  | .arcLineAssertion _ _ | .arcLineDeassertion _ _ => [.scanner, .links, .fromScanner]
  | .interlockLoopOpening _ | .closureTimerExpiry => [.scanner, .interlock, .links, .fromScanner, .journal]
  | .interlockLoopClosing => [.scanner]
  | .realMark _ _ | .markIntervalExpiry _ => [.monitors, .links, .journal]
  | .frameMark _ => [.arbiter, .levels, .links]
  | .stepReport _ => [.arbiter, .links]
  | .grantTaken _ => [.chans, .levels, .arbiter, .journal]
  | .rampCompletion _ => [.chans, .levels, .arbiter, .links, .journal]
  | .preemption _ => [.chans, .arbiter, .links, .journal]
  | .strike _ _ => [.strikes, .chans, .levels, .arbiter, .links, .fromScanner, .journal]
  | .lockoutAction _ => [.mem, .strikes, .chans, .levels, .arbiter, .links, .journal]
  | .conditionClearedEvent _ => [.mem, .strikes, .chans, .arbiter, .links, .journal]
  | .arcCleared _ | .interlockClosedEvent _ => [.mem, .strikes, .chans, .arbiter, .links, .fromScanner, .journal]
  | .holdoffExpiry _ => [.mem, .strikes, .chans, .arbiter, .journal]
  | .confirmationExpiry _ => [.mem, .strikes, .chans, .journal]
  | .interlockOpenedEvent _ => [.mem, .strikes, .chans, .levels, .arbiter, .links, .fromScanner, .journal]
  | .timeCounterWrap | .timeCounterTick => [.now, .strikes]
  | .foldbackJoin _ | .foldbackLeave _ => [.activeSets, .links, .foldback]
  | .positionCount _ => [.levels, .ceilings, .links, .counts]
  | .presenceChange _ _ _ => [.positions, .links, .counts, .journal]
  | .presenceTimerEnd _ => [.positions]
  | .identityReadEnd _ _ => [.positions, .journal]
  | .positionTrip _ _ => [.positions, .links, .counts, .trips, .journal]
  | .captureTrigger _ | .journalRecord _ => [.mem, .captures, .journal]
  | .statusRewrite _ | .statusRewriteEnd => [.mem, .status]

/-- The outcome is a next state that differs from `s` in the listed parts only. -/
def GoesOn (ps : List Part) (s : State) (o : Host.Outcome State Fault Refusal) : Prop :=
  ∃ t, o = .next t ∧ SameBut ps s t

variable {ps : List Part} {s t : State}

@[simp] theorem goesOn_next : GoesOn ps s (.next t) ↔ SameBut ps s t := by simp [GoesOn]

theorem GoesOn.ite {p : Prop} [Decidable p] {o o' : Host.Outcome State Fault Refusal} (h : p → GoesOn ps s o)
    (h' : GoesOn ps s o') : GoesOn ps s (if p then o else o') := by
  split
  · exact h ‹_›
  · exact h'

theorem goesOn_ite_next (p : Prop) [Decidable p] (h : SameBut ps s t) :
    GoesOn ps s (if p then .next t else .next s) :=
  .ite (fun _ => goesOn_next.mpr h) (by simp)

/-- A card that has come to a reset state has kept its queue of commands. -/
theorem sameBut_of_reset (cmd : Instr) (hcmd : ∀ p, p ∈ footprint cmd ∨ p = .pending) (h : t.pending = s.pending) :
    SameBut (footprint cmd) s t := fun p hp => by
  obtain rfl := (hcmd p).resolve_left hp
  exact h

theorem sameBut_visitFor {kind : RequestKind} {work : Arguments → State → State × Reply}
    (h : [.mem, .handler] ⊆ ps) (hwork : ∀ a u, SameBut ps s (work a u).1 ↔ SameBut ps s u) :
    SameBut ps s (visitFor kind work s) := by
  unfold visitFor
  split
  · exact (sameBut_serve _ h hwork).mpr (.refl _ _)
  · exact .refl _ _

theorem execSlotVisit_goesOn (s : State) : GoesOn requestParts s (execSlotVisit s) := by
  unfold execSlotVisit
  split
  · simp
  · split
    · split
      · simp [requestParts]
      · rw [goesOn_next, sameBut_serve _ (by simp [requestParts]) (fun a u => sameBut_workOf _ a (by simp [workParts, requestParts]))]
        simp
    · simp [requestParts]

/-- Every command answers a next state, and touches the parts of its footprint only. -/
theorem exec_goesOn (cmd : Instr) (s : State) : GoesOn (footprint cmd) s (exec cmd s) := by
  cases cmd with
  | powerOnReset lineHeld pins =>
    exact .ite (fun _ => goesOn_next.mpr (sameBut_of_reset _ (fun p => by cases p <;> simp [footprint]) rfl))
      (goesOn_next.mpr (sameBut_of_reset (.powerOnReset lineHeld pins) (fun p => by cases p <;> simp [footprint]) rfl))
  | controllerReset cause pins =>
    have taken : GoesOn (footprint (.controllerReset cause pins)) s (.next (takeControllerReset cause pins s)) := by
      refine goesOn_next.mpr (sameBut_of_reset _ (fun p => by cases p <;> simp [footprint]) ?_)
      unfold takeControllerReset
      split <;> rfl
    cases cause with
    | resetCtlWrite value => exact .ite (fun _ => taken) (by simp)
    | backplaneLine => exact taken
  | initializationEnd =>
    show GoesOn _ s (execInitializationEnd s)
    unfold execInitializationEnd
    split
    · rw [goesOn_next, sameBut_numberHeldRecords (by simp [footprint]), sameBut_setStatus _ (by simp [footprint]),
        sameBut_setPhase _ (by simp [footprint])]
      simp [footprint]
    all_goals simp
  | attn value =>
    show GoesOn _ s (execAttn value s)
    unfold execAttn
    split <;> simp [footprint]
  | irqEnableWrite value =>
    exact goesOn_ite_next _ ((sameBut_setIrqEnable _ (by simp [footprint])).mpr (.refl _ _))
  | registerWriteIgnored reg value => exact goesOn_next.mpr (.refl _ _)
  | journalReleaseWrite w => exact .ite (fun _ => by simp) (by simp [footprint])
  | slotStateWrite before slot value => exact .ite (fun _ => by simp) (by simp [footprint])
  | slotVisit => exact execSlotVisit_goesOn s
  | sweepEnd =>
    show GoesOn _ s (execSweepEnd s)
    unfold execSweepEnd
    split
    · exact goesOn_ite_next _ (by simp [footprint, endSweep])
    · simp
  | badKind =>
    show GoesOn _ s (execBadKind s)
    unfold execBadKind
    split
    · rw [goesOn_next, sameBut_serve _ (by simp [footprint]) (fun a u => Iff.rfl)]
      simp
    · simp
  | loadConditions =>
    show GoesOn _ s (execLoadConditions s)
    unfold execLoadConditions
    split <;> simp [footprint]
  | loadEnd lineOrder =>
    show GoesOn _ s (execLoadEnd lineOrder s)
    unfold execLoadEnd
    split <;> simp [footprint]
  | clearCondition => exact goesOn_next.mpr (sameBut_visitFor (by simp [footprint]) (by simp [footprint]))
  | loadProfile => exact goesOn_next.mpr (sameBut_visitFor (by simp [footprint]) (by simp [footprint]))
  | channelOn => exact goesOn_next.mpr (sameBut_visitFor (by simp [footprint]) (by simp [footprint]))
  | channelOff => exact goesOn_next.mpr (sameBut_visitFor (by simp [footprint]) (by simp [footprint]))
  | setTarget => exact goesOn_next.mpr (sameBut_visitFor (by simp [footprint]) (by simp [footprint]))
  | confirmRestrike => exact goesOn_next.mpr (sameBut_visitFor (by simp [footprint]) (by simp [footprint]))
  | releaseLockout => exact goesOn_next.mpr (sameBut_visitFor (by simp [footprint]) (by simp [footprint]))
  | enablePosition => exact goesOn_next.mpr (sameBut_visitFor (by simp [footprint]) (by simp [footprint]))
  | disablePosition => exact goesOn_next.mpr (sameBut_visitFor (by simp [footprint]) (by simp [footprint]))
  | holdCapture => exact goesOn_next.mpr (sameBut_visitFor (by simp [footprint]) (by simp [footprint]))
  | releaseCapture => exact goesOn_next.mpr (sameBut_visitFor (by simp [footprint]) (by simp [footprint]))
  | sampleArrival point input order => exact goesOn_ite_next _ (by simp [footprint])
  | arcLineAssertion line spell => exact goesOn_ite_next _ (by simp [footprint])
  | arcLineDeassertion line spell => exact goesOn_ite_next _ (by simp [footprint])
  | interlockLoopOpening spell =>
    show GoesOn _ s (execInterlockLoopOpening spell s)
    unfold execInterlockLoopOpening
    split_ifs <;> simp [footprint]
  | interlockLoopClosing => exact goesOn_ite_next _ (by simp [footprint])
  | closureTimerExpiry =>
    show GoesOn _ s (execClosureTimerExpiry s)
    unfold execClosureTimerExpiry
    split
    · simp
    · exact goesOn_ite_next _ (by simp [footprint])
  | realMark c spell => exact goesOn_ite_next _ (by simp [footprint])
  | markIntervalExpiry c => exact goesOn_ite_next _ (by simp [footprint])
  | frameMark c =>
    show GoesOn _ s (execFrameMark c s)
    unfold execFrameMark
    split <;> simp [footprint]
  | stepReport c =>
    show GoesOn _ s (execStepReport c s)
    unfold execStepReport
    split
    · simp
    · simp only []
      split <;> simp [footprint]
  | grantTaken c =>
    show GoesOn _ s (execGrantTaken c s)
    refine .ite (fun _ => ?_) (by simp)
    split <;> simp [footprint]
  | rampCompletion c =>
    show GoesOn _ s (execRampCompletion c s)
    unfold execRampCompletion
    split
    · simp
    · simp only []
      split <;> simp [footprint]
  | preemption c =>
    show GoesOn _ s (execPreemption c s)
    unfold execPreemption
    split
    · simp
    · simp only []
      split
      · split <;> simp [footprint]
      all_goals simp [footprint]
  | strike c link =>
    show GoesOn _ s (execStrike c link s)
    unfold execStrike
    split <;> simp [footprint]
  | lockoutAction c =>
    show GoesOn _ s (execLockoutAction c s)
    unfold execLockoutAction
    split <;> simp [footprint]
  | conditionClearedEvent c =>
    show GoesOn _ s (execConditionClearedEvent c s)
    unfold execConditionClearedEvent
    split <;> simp [footprint]
  | arcCleared c =>
    show GoesOn _ s (execArcCleared c s)
    unfold execArcCleared
    split <;> simp [footprint]
  | holdoffExpiry c =>
    show GoesOn _ s (execHoldoffExpiry c s)
    unfold execHoldoffExpiry
    split
    · simp
    · split_ifs <;> simp [footprint]
  | confirmationExpiry c =>
    show GoesOn _ s (execConfirmationExpiry c s)
    unfold execConfirmationExpiry
    split
    · simp
    · exact goesOn_ite_next _ (by simp [footprint])
  | interlockOpenedEvent c =>
    show GoesOn _ s (execInterlockOpenedEvent c s)
    unfold execInterlockOpenedEvent
    split <;> simp [footprint]
  | interlockClosedEvent c =>
    show GoesOn _ s (execInterlockClosedEvent c s)
    unfold execInterlockClosedEvent
    split <;> simp [footprint]
  | timeCounterWrap => exact goesOn_ite_next _ (by simp [footprint])
  | timeCounterTick => exact goesOn_ite_next _ (by simp [footprint])
  | foldbackJoin c =>
    show GoesOn _ s (execFoldbackJoin c s)
    unfold execFoldbackJoin
    split <;> simp [footprint]
  | foldbackLeave c =>
    show GoesOn _ s (execFoldbackLeave c s)
    unfold execFoldbackLeave
    split <;> simp [footprint]
  | positionCount c =>
    show GoesOn _ s (execPositionCount c s)
    unfold execPositionCount
    split
    · simp
    · simp only []
      split
      · simp [footprint]
      · rw [goesOn_next, sameBut_changeEntry _ _ (by simp [footprint]) (by simp [footprint]) (by rfl)]
        simp [footprint]
  | presenceChange p active spell => exact goesOn_ite_next _ (by simp [footprint])
  | presenceTimerEnd p =>
    show GoesOn _ s (execPresenceTimerEnd p s)
    unfold execPresenceTimerEnd
    split
    · simp
    · exact goesOn_ite_next _ (by simp [footprint])
  | identityReadEnd p code =>
    show GoesOn _ s (execIdentityReadEnd p code s)
    unfold execIdentityReadEnd
    split
    · simp
    · exact goesOn_ite_next _ (by simp [footprint])
  | positionTrip p e =>
    show GoesOn _ s (execPositionTrip p e s)
    unfold execPositionTrip
    split <;> simp [footprint]
  | captureTrigger c => exact goesOn_ite_next _ (by simp [footprint])
  | journalRecord sender =>
    show GoesOn _ s (execJournalRecord sender s)
    unfold execJournalRecord
    split
    · exact goesOn_ite_next _ (by simp [footprint])
    · simp
  | statusRewrite fields =>
    show GoesOn _ s (execStatusRewrite fields s)
    unfold execStatusRewrite
    split
    · simp [footprint]
    · exact goesOn_ite_next _ (by simp [footprint])
    · simp
  | statusRewriteEnd =>
    show GoesOn _ s (execStatusRewriteEnd s)
    unfold execStatusRewriteEnd
    split <;> simp [footprint]
  | backplaneResetRelease pins =>
    show GoesOn _ s (execBackplaneResetRelease pins s)
    unfold execBackplaneResetRelease
    split
    · exact goesOn_next.mpr (sameBut_of_reset _ (fun p => by cases p <;> simp [footprint]) rfl)
    all_goals simp
  | supplyLoss => exact goesOn_next.mpr (sameBut_of_reset _ (fun p => by cases p <;> simp [footprint]) rfl)

/-- What a command changes lies in its footprint. -/
theorem exec_sameBut {cmd : Instr} (h : exec cmd s = .next t) : SameBut (footprint cmd) s t := by
  obtain ⟨u, hu, hsame⟩ := exec_goesOn cmd s
  rw [h] at hu
  cases hu
  exact hsame

/-- No command's footprint holds the queue of commands. -/
theorem pending_not_mem_footprint (cmd : Instr) : Part.pending ∉ footprint cmd := by
  cases cmd <;> simp [footprint, requestParts]

/-- Settles O2: every command goes on, and no footprint holds the queue. -/
theorem everyCommandCompletesAndKeepsTheQueue : Obligations.EveryCommandCompletesAndKeepsTheQueue := by
  intro cmd s
  obtain ⟨t, ht, hsame⟩ := exec_goesOn cmd s
  exact ⟨t, ht, hsame .pending (pending_not_mem_footprint cmd)⟩

/-- Settles O1: `step` is defined by the front of the queue. -/
theorem stepTakesTheFrontCommand : Obligations.StepTakesTheFrontCommand := by
  refine ⟨fun cmd rest s h => ?front, fun s h => ?idle⟩
  case front => simp [step, h]
  case idle => simp [step, h]

end Sys2Proof.Machine


/-! How a law is shown to be kept by every step: it reads some parts of the card, so a command that touches none of them
keeps it; what is left is one case for each command that does. -/

namespace Sys2Proof.Machine

/-! ## Laws and the parts they read -/

/-- The law holds of a state as soon as it holds of one with the same parts `rs`. -/
def Reads (P : State → Prop) (rs : List Part) : Prop := ∀ s t, (∀ p ∈ rs, p.Same s t) → P s → P t

variable {P : State → Prop} {rs ps : List Part} {s t : State}

theorem Reads.keep (hP : Reads P rs) (h : SameBut ps s t) (hdisjoint : ∀ p ∈ rs, p ∉ ps) (hs : P s) : P t :=
  hP s t (fun p hp => h p (hdisjoint p hp)) hs

theorem Reads.keep_exec (hP : Reads P rs) {cmd : Instr} (h : exec cmd s = .next t)
    (hdisjoint : ∀ p ∈ rs, p ∉ footprint cmd) (hs : P s) : P t :=
  hP.keep (exec_sameBut h) hdisjoint hs

/-- The property holds of the next state, where the outcome is one. -/
def Leads (P : State → Prop) (o : Host.Outcome State Fault Refusal) : Prop := ∀ t, o = .next t → P t

@[simp] theorem leads_next : Leads P (.next t) ↔ P t := by simp [Leads]

theorem Leads.ite {p : Prop} [Decidable p] {o o' : Host.Outcome State Fault Refusal} (h : p → Leads P o)
    (h' : ¬ p → Leads P o') : Leads P (if p then o else o') := by
  split
  · exact h ‹_›
  · exact h' ‹_›

theorem leads_ite_next {p : Prop} [Decidable p] (h : p → P t) (hs : P s) : Leads P (if p then .next t else .next s) :=
  .ite (fun hp => leads_next.mpr (h hp)) (fun _ => leads_next.mpr hs)

/-! ## Resets -/

/-- The commands that bring the blocks to their reset values. -/
def isReset : Instr → Bool
  | .powerOnReset _ _ | .controllerReset _ _ | .backplaneResetRelease _ | .supplyLoss => true
  | _ => false

/-- R74: the card without supply (log 16). -/
def withoutSupply (s : State) : State := { State.reset with phase := .unpowered, pending := s.pending }

theorem exec_supplyLoss (s : State) : exec .supplyLoss s = .next (withoutSupply s) := rfl

/-- R159: a reset that is taken puts the card in reset, or out of reset again, or leaves it without supply. -/
theorem leads_of_isReset {cmd : Instr} (hcmd : isReset cmd = true) (henter : ∀ powerOn, P (enterReset powerOn s))
    (hleave : ∀ powerOn pins, P (leaveReset powerOn pins s)) (hloss : P (withoutSupply s)) (h : P s) :
    Leads P (exec cmd s) := by
  have htaken : ∀ cause pins, P (takeControllerReset cause pins s) := fun cause pins => by
    unfold takeControllerReset
    split
    · exact h
    · exact h
    · exact henter false
    · exact henter false
    · exact hleave false pins
    · exact hleave false pins
  cases cmd with
  | powerOnReset lineHeld pins =>
    exact .ite (fun _ => leads_next.mpr (henter true)) (fun _ => leads_next.mpr (hleave true pins))
  | controllerReset cause pins =>
    cases cause with
    | resetCtlWrite value => exact leads_ite_next (fun _ => htaken _ pins) h
    | backplaneLine => exact leads_next.mpr (htaken _ pins)
  | backplaneResetRelease pins =>
    show Leads P (execBackplaneResetRelease pins s)
    unfold execBackplaneResetRelease
    split
    · exact leads_next.mpr (hleave _ pins)
    all_goals exact leads_next.mpr h
  | supplyLoss => exact leads_next.mpr hloss
  | _ => cases hcmd

/-! ## The end of initialization -/

/-- R161, R162: the card as it becomes READY, the held records apart. -/
def becomeReady (s : State) : State :=
  { finishAreas s with phase := .ready }.setStatus { (finishAreas s).status with due := (finishAreas s).now }

theorem exec_initializationEnd_eq (s : State) :
    exec .initializationEnd s =
      if s.phase = .initializing then .next (numberHeldRecords (becomeReady s)) else .next s := by
  show execInitializationEnd s = _
  unfold execInitializationEnd
  cases h : s.phase <;> rfl

theorem sameBut_becomeReady (h : [.phase, .mem, .initialized, .status] ⊆ ps) :
    SameBut ps s (becomeReady t) ↔ SameBut ps s t := by
  simp only [List.cons_subset] at h
  rw [becomeReady, sameBut_setStatus _ h.2.2.2.1, sameBut_setPhase _ h.1]
  simp [h]

/-! ## Visits and requests -/

/-- R155: a visit of a POSTED slot is the command of the request in it (log 5). -/
theorem execSlotVisit_of_posted {k : SlotIx} (hv : visiting s = some k) (hp : posted s k = true) :
    execSlotVisit s = exec (requestCommand (slotKind s k)) s := by
  have hoffered : offered (slotKind s k) s = some k := by simp [offered, hv, hp]
  unfold execSlotVisit
  simp only [hv, hp, if_true]
  generalize slotKind s k = kind at hoffered
  cases kind with
  | none => simp [requestCommand, exec, execBadKind, hoffered, workOf]
  | some kind =>
    cases kind <;> simp [requestCommand, exec, execLoadConditions, execLoadProfile, execChannelOn, execChannelOff,
      execSetTarget, execConfirmRestrike, execReleaseLockout, execClearCondition, execEnablePosition,
      execDisablePosition, execHoldCapture, execReleaseCapture, visitFor, hoffered, workOf]

/-- R155: a visit does nothing, passes over a slot, or is the command of the request that it takes (log 5). -/
theorem execSlotVisit_cases (s : State) :
    execSlotVisit s = .next s ∨ execSlotVisit s = .next (moveOn 0 s)
    ∨ ∃ kind, execSlotVisit s = exec (requestCommand kind) s := by
  cases hv : visiting s with
  | none => exact .inl (by simp [execSlotVisit, hv])
  | some k =>
    by_cases hp : posted s k = true
    · exact .inr (.inr ⟨slotKind s k, execSlotVisit_of_posted hv hp⟩)
    · exact .inr (.inl (by simp [execSlotVisit, hv, hp]))

theorem requestCommand_ne_slotVisit (kind : Option RequestKind) : requestCommand kind ≠ .slotVisit := by
  cases kind with
  | none => simp [requestCommand]
  | some kind => cases kind <;> simp [requestCommand]

/-- A law that reads neither the slots nor the handler is kept by a request whose work keeps it. -/
theorem Reads.keep_serve (hP : Reads P rs) (hrs : .mem ∉ rs ∧ .handler ∉ rs) (k : SlotIx)
    {work : Arguments → State → State × Reply} (hwork : ∀ a u, P u → P (work a u).1) (hs : P s) :
    P (serve k work s) := by
  have hdisjoint : ∀ p ∈ rs, p ∉ [Part.mem, .handler] := fun p hp => by
    rintro hmem
    simp only [List.mem_cons, List.not_mem_nil, or_false] at hmem
    rcases hmem with rfl | rfl
    · exact hrs.1 hp
    · exact hrs.2 hp
  have htaken : P (writeSlotState k 2 s) := hP.keep (ps := [.mem, .handler]) (by simp) hdisjoint hs
  exact hP.keep (ps := [.mem, .handler]) (by simp [serve]) hdisjoint (hwork (argumentsOf s.mem k) _ htaken)

theorem Reads.keep_visitFor (hP : Reads P rs) (hrs : .mem ∉ rs ∧ .handler ∉ rs) (kind : RequestKind)
    {work : Arguments → State → State × Reply} (hwork : ∀ a u, P u → P (work a u).1) (hs : P s) :
    P (visitFor kind work s) := by
  unfold visitFor
  split
  · exact hP.keep_serve hrs _ hwork hs
  · exact hs

/-! ## From commands to steps -/

/-- The queue of commands apart, a state is as it was. -/
theorem sameBut_setPending (s : State) (rest : List Instr) : SameBut [.pending] s { s with pending := rest } :=
  .of_cases fun p => by cases p <;> simp [Part.Same, State.chan, State.resolver, State.link]

/-- A law that reads neither the queue nor the handler is kept by every step, once every command other than SLOT_VISIT
keeps it: a visit is the command of the request that it takes. -/
theorem Reads.keep_step (hP : Reads P rs) (hrs : .pending ∉ rs ∧ .handler ∉ rs)
    (hexec : ∀ cmd s t, cmd ≠ .slotVisit → P s → exec cmd s = .next t → P t) :
    ∀ s t, P s → step s = .next t → P t := by
  have hqueue : ∀ s rest, P s → P { s with pending := rest } := fun s rest =>
    hP.keep (sameBut_setPending s rest) (fun p hp hmem => hrs.1 (by simp at hmem; exact hmem ▸ hp))
  have hmove : ∀ s, P s → P (moveOn 0 s) := fun s =>
    hP.keep (ps := [.handler]) (by simp) (fun p hp hmem => hrs.2 (by simp at hmem; exact hmem ▸ hp))
  have hvisit : ∀ s t, P s → exec .slotVisit s = .next t → P t := fun s t hs ht => by
    change execSlotVisit s = .next t at ht
    rcases execSlotVisit_cases s with h | h | ⟨kind, h⟩ <;> rw [h] at ht
    · cases ht; exact hs
    · cases ht; exact hmove s hs
    · exact hexec _ s t (requestCommand_ne_slotVisit kind) hs ht
  intro s t hs ht
  unfold step at ht
  split at ht
  · cases ht; exact hs
  · rename_i cmd rest _
    by_cases hcmd : cmd = .slotVisit
    · subst hcmd; exact hvisit _ t (hqueue s rest hs) ht
    · exact hexec cmd _ t hcmd (hqueue s rest hs) ht

end Sys2Proof.Machine


/-! The laws of common memory (R150), of the Capture Unit (R140, R144, R147) and of the update count (R168): every step
keeps each of them. -/

namespace Sys2Proof.Machine

variable {s t : State}

/-! ## The canonical form of common memory: every write lies inside the 64 KiB -/

theorem reads_memoryLaw : Reads MemoryLaw [.mem] := fun s t hsame h => by
  have hmem : t.mem = s.mem := hsame .mem (by simp)
  rwa [MemoryLaw, hmem]

/-- An operation that does not touch memory. -/
theorem MemoryLaw.keep {ps : List Part} (h : MemoryLaw s) (hsame : SameBut ps s t) (hmem : .mem ∉ ps) : MemoryLaw t :=
  reads_memoryLaw.keep hsame (by simpa using hmem) h

theorem MemoryLaw.write {a : Nat} {bs : List Byte} (h : MemoryLaw s) (hb : a + bs.length ≤ Config.memorySize) :
    MemoryLaw (s.write a bs) := write_keeps_memoryLaw s a bs h hb

theorem memoryLaw_forEach {α : Type} {f : α → State → State} (l : List α)
    (hf : ∀ x t, MemoryLaw t → MemoryLaw (f x t)) (h : MemoryLaw s) : MemoryLaw (forEach l f s) :=
  forEach_keeps MemoryLaw f l s (fun x _ t ht => hf x t ht) h

theorem memoryLaw_zeroRange (a n : Nat) (h : MemoryLaw s) : MemoryLaw (s.setMem (zeroRange s.mem a n)) :=
  wf_zeroRange s.mem a n h

theorem memoryLaw_writeCaptureHeader (b : BufferIx) (h : MemoryLaw s) : MemoryLaw (writeCaptureHeader b s) :=
  h.write (by simp [Config.captureHeaderBase, Config.memorySize]; omega)

theorem memoryLaw_changeBuffer (b : BufferIx) (x : CaptureBuffer) (h : MemoryLaw s) :
    MemoryLaw (changeBuffer b x s) :=
  memoryLaw_writeCaptureHeader b h

theorem length_flatMap_const {α β : Type} (l : List α) (f : α → List β) (n : Nat) (h : ∀ x, (f x).length = n) :
    (l.flatMap f).length = l.length * n := by
  simp [List.length_flatMap, h]

/-- Section 11.4: the pre-trigger samples of a buffer take 768 bytes. -/
theorem length_preTriggerBytes (sc : Scanner) : (preTriggerBytes sc).length = 768 := by
  unfold preTriggerBytes
  rw [length_flatMap_const _ _ 12 (fun k => length_flatMap_const _ _ 2 (fun j => length_numBytes 2 _))]
  rfl

theorem memoryLaw_takeTrigger (o : TriggerOutcome) (c : Channel) (h : MemoryLaw s) : MemoryLaw (takeTrigger o c s) := by
  cases o with
  | noCapture => exact h
  | joins b => exact memoryLaw_changeBuffer b _ h
  | starts b =>
    refine (memoryLaw_changeBuffer b ⟨.filling, 0, s.now, 1#4 <<< c.val⟩ h).write ?_
    rw [length_preTriggerBytes]
    simp [Config.captureDataBase, Config.memorySize]
    omega

theorem memoryLaw_finishFill (h : MemoryLaw s) : MemoryLaw (finishFill s) := by
  unfold finishFill
  split
  · exact h
  · split
    · exact memoryLaw_changeBuffer _ _ h
    · exact h

theorem memoryLaw_fillCapture (j : CapturedIx) (value : Nat) (h : MemoryLaw s) : MemoryLaw (fillCapture j value s) := by
  unfold fillCapture
  split
  · exact h
  · rename_i b _
    simp only []
    split
    · refine memoryLaw_finishFill (h.write (a := Config.captureDataBase + _ + _ + _) ?_)
      simp [Config.captureDataBase, Config.memorySize]
      omega
    · exact h

theorem memoryLaw_writeTriggerSequence (b : BufferIx) (q : Seq) (h : MemoryLaw s) :
    MemoryLaw (writeTriggerSequence b q s) :=
  memoryLaw_finishFill (memoryLaw_changeBuffer b _ h)

theorem memoryLaw_holdCapture (a : Arguments) (h : MemoryLaw s) : MemoryLaw (holdCapture a s).1 := by
  unfold holdCapture
  split
  · exact h
  · split
    · exact memoryLaw_changeBuffer _ _ h
    all_goals exact h

theorem memoryLaw_releaseCapture (a : Arguments) (h : MemoryLaw s) : MemoryLaw (releaseCapture a s).1 := by
  unfold releaseCapture
  split
  · exact h
  · exact memoryLaw_changeBuffer _ _ h

theorem memoryLaw_writeJournalHeader (h : MemoryLaw s) : MemoryLaw (writeJournalHeader s) :=
  h.write (by simp [Config.journalHeaderBase, Config.memorySize])

theorem memoryLaw_numberRecord (r : Record) (h : MemoryLaw s) : MemoryLaw (numberRecord r s) := by
  unfold numberRecord
  have hrecord : MemoryLaw (s.write (Config.journalBase + 32 * s.journal.next.val)
      (recordBytes (nextSequence s.journal.newest) r)) :=
    h.write (by rw [length_recordBytes]; simp [Config.journalBase, Config.memorySize]; omega)
  have hheader : MemoryLaw (writeJournalHeader ((s.write (Config.journalBase + 32 * s.journal.next.val)
      (recordBytes (nextSequence s.journal.newest) r)).setJournal
        { s.journal with newest := nextSequence s.journal.newest, next := s.journal.next + 1 })) :=
    memoryLaw_writeJournalHeader hrecord
  simp only []
  split
  · exact hheader
  · exact memoryLaw_writeTriggerSequence _ _ hheader

theorem memoryLaw_numberHeldRecords (h : MemoryLaw s) : MemoryLaw (numberHeldRecords s) :=
  memoryLaw_forEach _ (fun w _ => memoryLaw_numberRecord w.record) h

/-- Section 11.4: every field of the status block lies in its area. -/
theorem statusFields_in_area (s : State) : ∀ f ∈ statusFields s, f.offset + f.size ≤ Config.statusSize := by
  intro f hf
  simp only [statusFields, List.mem_append, List.mem_flatMap, List.mem_map, channelFields, positionFields,
    List.mem_cons, List.not_mem_nil, or_false] at hf
  simp only [Config.statusSize]
  rcases hf with ((((hf | ⟨c, _, hf⟩) | ⟨p, _, hf⟩) | ⟨i, _, rfl⟩) | ⟨q, _, rfl⟩) | rfl
  · rcases hf with rfl | rfl | rfl | rfl | rfl <;> simp
  · have hc := c.isLt
    rcases hf with rfl | rfl | rfl | rfl | rfl | rfl | rfl | rfl | rfl | rfl | rfl | rfl | rfl | rfl <;>
      simp only [] <;> omega
  · have hp := p.isLt
    rcases hf with rfl | rfl | rfl | rfl <;> simp only [] <;> omega
  · have hi := i.isLt
    simp only []
    omega
  · have hq := q.isLt
    simp only []
    omega
  · decide

theorem memoryLaw_copyField (k : Nat) (h : MemoryLaw s) : MemoryLaw (copyField k s) := by
  unfold copyField
  split
  · rename_i f _ hf
    split
    · exact h
    · have harea := statusFields_in_area s f (List.mem_of_getElem? hf)
      simp only [Config.statusSize] at harea
      exact h.write (by simp [Config.statusBase, Config.memorySize]; omega)
  · exact h

theorem memoryLaw_bumpUpdateCount (h : MemoryLaw s) : MemoryLaw (bumpUpdateCount s) :=
  h.write (by simp [Config.statusBase, Config.memorySize])

theorem memoryLaw_writeConfirmation (c : Channel) (h : MemoryLaw s) : MemoryLaw (writeConfirmation c s) :=
  h.write (by simp [Config.confirmationBase, Config.memorySize]; omega)

theorem memoryLaw_endConfirmation (c : Channel) (h : MemoryLaw s) : MemoryLaw (endConfirmation c s) := by
  unfold endConfirmation
  split
  · exact memoryLaw_writeConfirmation c h
  · exact h

theorem memoryLaw_verdict (c : Channel) (extended : Bool) (after : Option Stamp) (h : MemoryLaw s) :
    MemoryLaw (verdict c extended after s) := by
  rcases verdict_cases c extended after s with hv | hv <;> rw [hv]
  · exact memoryLaw_writeConfirmation c h
  · exact h.keep (ps := [.strikes, .chans, .arbiter, .journal]) (by simp) (by simp)

theorem memoryLaw_confirmRestrike (a : Arguments) (h : MemoryLaw s) : MemoryLaw (confirmRestrike a s).1 := by
  have hend : ∀ c, MemoryLaw (endConfirmation c s) := fun c => memoryLaw_endConfirmation c h
  unfold confirmRestrike
  split
  · exact h
  · rename_i c _
    split_ifs
    · exact h
    · exact (hend c).keep (ps := [.chans, .arbiter, .journal]) (by simp [acceptAnswer]) (by simp)
    · exact (hend c).keep (ps := [.chans, .journal]) (by simp [declineAnswer]) (by simp)
    · exact h

theorem memoryLaw_depart (c : Channel) (h : MemoryLaw s) : MemoryLaw (depart c s) :=
  memoryLaw_endConfirmation c (h.keep (ps := [.chans, .levels, .arbiter]) (by simp) (by simp))

theorem memoryLaw_endHoldoff (c : Channel) (after : Option Stamp) (h : MemoryLaw s) :
    MemoryLaw (endHoldoff c after s) :=
  memoryLaw_verdict c _ after (h.keep (ps := [.chans]) (by simp) (by simp))

theorem memoryLaw_askAgain (c : Channel) (after : Option Stamp) (h : MemoryLaw s) : MemoryLaw (askAgain c after s) := by
  unfold askAgain
  split
  · exact memoryLaw_endHoldoff c after h
  · exact h

theorem memoryLaw_takeLockout (c : Channel) (e : EntryIx) (capture : Bool) (after : Option Stamp) (h : MemoryLaw s) :
    MemoryLaw (takeLockout c e capture after s) := by
  unfold takeLockout
  split
  · exact h
  · exact h
  all_goals
    exact (memoryLaw_depart c h).keep (ps := [.chans, .arbiter, .journal]) (by simp) (by simp)

theorem memoryLaw_takeOpened (c : Channel) (after : Option Stamp) (h : MemoryLaw s) :
    MemoryLaw (takeOpened c after s) := by
  unfold takeOpened
  split
  · exact h
  · exact h
  · exact h
  all_goals
    exact (memoryLaw_depart c h).keep (ps := [.chans, .arbiter, .journal]) (by simp) (by simp)

theorem memoryLaw_takeClosed (c : Channel) (after : Option Stamp) (h : MemoryLaw s) :
    MemoryLaw (takeClosed c after s) := by
  unfold takeClosed
  split
  · exact memoryLaw_verdict c false after h
  · exact h

theorem memoryLaw_channelOff (a : Arguments) (h : MemoryLaw s) : MemoryLaw (channelOff a s).1 := by
  unfold channelOff
  cases index 4 a.word1 with
  | none => exact h
  | some c =>
    simp only []
    split
    · exact h
    · exact h
    all_goals
      exact (memoryLaw_depart c h).keep (ps := [.strikes, .chans, .levels, .arbiter, .journal]) (by simp [takeOff])
        (by simp)

theorem memoryLaw_writeArea (area : InitArea) (h : MemoryLaw s) : MemoryLaw (writeArea area s) := by
  cases area with
  | slots =>
    refine memoryLaw_forEach _ (fun k t ht => ht.write ?_) h
    simp [slotAddress, Config.slotBase, Config.memorySize]
    omega
  | release => exact h.write (by simp [Config.releaseBase, Config.memorySize])
  | journal => exact memoryLaw_writeJournalHeader (memoryLaw_zeroRange _ _ h)
  | confirmations => exact memoryLaw_forEach _ (fun c _ => memoryLaw_writeConfirmation c) h
  | captures => exact memoryLaw_forEach _ (fun b _ => memoryLaw_writeCaptureHeader b) (memoryLaw_zeroRange _ _ h)
  | identity => exact h.write (by simp [Config.identityFields, Config.memorySize])

theorem memoryLaw_initializeArea (area : InitArea) (h : MemoryLaw s) : MemoryLaw (initializeArea area s) := by
  unfold initializeArea
  split
  · exact memoryLaw_writeArea area h
  · exact h

theorem memoryLaw_takeTraffic (item : Traffic) (h : MemoryLaw s) : MemoryLaw (takeTraffic item s) := by
  cases item with
  | write a b => exact h.write (by simp [Config.memorySize]; omega)
  | initArea area => exact memoryLaw_initializeArea area h
  | readDrafts upTo => exact h.keep (ps := [.load]) (by simp [takeTraffic]) (by simp)

theorem memoryLaw_finishAreas (h : MemoryLaw s) : MemoryLaw (finishAreas s) := by
  unfold finishAreas
  exact memoryLaw_writeArea .release (memoryLaw_writeArea .slots
    (memoryLaw_forEach _ (fun area _ => memoryLaw_initializeArea area) h))

theorem memoryLaw_writeSlotState (k : SlotIx) (value : Nat) (h : MemoryLaw s) : MemoryLaw (writeSlotState k value s) :=
  h.write (by simp [slotAddress, Config.slotBase, Config.memorySize]; omega)

theorem memoryLaw_completeSlot (k : SlotIx) (r : Reply) (h : MemoryLaw s) : MemoryLaw (completeSlot k r s) := by
  have hresult : MemoryLaw (s.write (slotAddress k + 0x0C)
      (numBytes 2 r.code.code ++ numBytes 2 r.detail1 ++ numBytes 2 r.detail2)) :=
    h.write (by simp [slotAddress, Config.slotBase, Config.memorySize]; omega)
  exact (memoryLaw_writeSlotState k 3 hresult).keep (ps := [.handler]) (by simp [completeSlot]) (by simp)

theorem memoryLaw_serve (k : SlotIx) {work : Arguments → State → State × Reply}
    (hwork : ∀ a u, MemoryLaw u → MemoryLaw (work a u).1) (h : MemoryLaw s) : MemoryLaw (serve k work s) :=
  memoryLaw_completeSlot k _ (hwork _ _ (memoryLaw_writeSlotState k 2 h))

theorem memoryLaw_visitFor {kind : RequestKind} {work : Arguments → State → State × Reply}
    (hwork : ∀ a u, MemoryLaw u → MemoryLaw (work a u).1) (h : MemoryLaw s) : MemoryLaw (visitFor kind work s) := by
  unfold visitFor
  split
  · exact memoryLaw_serve _ hwork h
  · exact h

/-- A request whose work leaves memory alone. -/
theorem memoryLaw_visitFor_of_same {kind : RequestKind} {work : Arguments → State → State × Reply} (ps : List Part)
    (hwork : ∀ a u, SameBut ps u (work a u).1) (hmem : .mem ∉ ps) (h : MemoryLaw s) :
    MemoryLaw (visitFor kind work s) :=
  memoryLaw_visitFor (fun a u hu => hu.keep (hwork a u) hmem) h

theorem memoryLaw_leaveReset (powerOn : Bool) (pins : Pins) (h : MemoryLaw s) :
    MemoryLaw (leaveReset powerOn pins s) := by
  cases powerOn with
  | true => exact wf_nil
  | false => exact wf_zeroRange s.mem _ _ h

/-- R150: every command keeps the canonical form. -/
theorem exec_leads_memoryLaw (cmd : Instr) (hvisit : cmd ≠ .slotVisit) (h : MemoryLaw s) :
    Leads MemoryLaw (exec cmd s) := by
  cases cmd with
  | powerOnReset _ _ | controllerReset _ _ | backplaneResetRelease _ | supplyLoss =>
    exact leads_of_isReset rfl (fun _ => h) (fun powerOn pins => memoryLaw_leaveReset powerOn pins h) wf_nil h
  | initializationEnd =>
    have hready : MemoryLaw (becomeReady s) :=
      (memoryLaw_finishAreas h).keep (ps := [.phase, .status])
        (by rw [becomeReady, sameBut_setStatus _ (by simp), sameBut_setPhase _ (by simp)]; simp) (by simp)
    rw [exec_initializationEnd_eq]
    exact leads_ite_next (fun _ => memoryLaw_numberHeldRecords hready) h
  | journalReleaseWrite w =>
    refine .ite (fun _ => leads_next.mpr h) (fun _ => leads_next.mpr (h.write ?_))
    cases w <;> simp [releaseTarget, Config.releaseBase, Config.memorySize]
  | slotStateWrite before slot value =>
    refine .ite (fun _ => leads_next.mpr h) (fun _ => leads_next.mpr ?_)
    exact memoryLaw_writeSlotState slot value.toNat (memoryLaw_forEach _ (fun item _ => memoryLaw_takeTraffic item) h)
  | slotVisit => exact absurd rfl hvisit
  | badKind =>
    show Leads MemoryLaw (execBadKind s)
    unfold execBadKind
    split
    · exact leads_next.mpr (memoryLaw_serve _ (fun _ _ => id) h)
    · exact leads_next.mpr h
  | loadConditions =>
    show Leads MemoryLaw (execLoadConditions s)
    unfold execLoadConditions
    split
    · exact leads_next.mpr (memoryLaw_writeSlotState _ 2 h)
    · exact leads_next.mpr h
  | loadEnd lineOrder =>
    show Leads MemoryLaw (execLoadEnd lineOrder s)
    unfold execLoadEnd
    split
    · exact leads_next.mpr h
    · refine leads_next.mpr (memoryLaw_completeSlot _ _ (h.keep
        (ps := [.entries, .settings, .load, .links, .foldback, .fromScanner, .journal]) (by simp) (by simp)))
  | clearCondition =>
    exact leads_next.mpr (memoryLaw_visitFor_of_same [.entries, .links, .foldback, .journal] (by simp) (by simp) h)
  | loadProfile =>
    exact leads_next.mpr (memoryLaw_visitFor_of_same
      [.chans, .profiles, .levels, .ceilings, .positions, .links, .counts, .journal] (by simp) (by simp) h)
  | channelOn =>
    exact leads_next.mpr (memoryLaw_visitFor_of_same [.chans, .levels, .arbiter, .journal] (by simp) (by simp) h)
  | channelOff => exact leads_next.mpr (memoryLaw_visitFor (fun a _ => memoryLaw_channelOff a) h)
  | setTarget => exact leads_next.mpr (memoryLaw_visitFor_of_same [.levels, .links] (by simp) (by simp) h)
  | confirmRestrike => exact leads_next.mpr (memoryLaw_visitFor (fun a _ => memoryLaw_confirmRestrike a) h)
  | releaseLockout =>
    exact leads_next.mpr (memoryLaw_visitFor_of_same [.strikes, .chans, .levels, .journal] (by simp) (by simp) h)
  | enablePosition =>
    exact leads_next.mpr (memoryLaw_visitFor_of_same [.positions, .links, .counts, .journal] (by simp) (by simp) h)
  | disablePosition =>
    exact leads_next.mpr (memoryLaw_visitFor_of_same [.positions, .links, .counts, .journal] (by simp) (by simp) h)
  | holdCapture => exact leads_next.mpr (memoryLaw_visitFor (fun a _ => memoryLaw_holdCapture a) h)
  | releaseCapture => exact leads_next.mpr (memoryLaw_visitFor (fun a _ => memoryLaw_releaseCapture a) h)
  | sampleArrival point input order =>
    refine leads_ite_next (fun _ => ?_) h
    have hevaluated : MemoryLaw (evaluate point order (takeCount point (saturate input) s)) :=
      h.keep (ps := [.scanner, .entries, .links, .foldback, .trips, .journal]) (by simp) (by simp)
    unfold captureArrival
    split
    · exact hevaluated
    · exact memoryLaw_fillCapture _ _ hevaluated
  | lockoutAction c =>
    show Leads MemoryLaw (execLockoutAction c s)
    unfold execLockoutAction
    split
    · exact leads_next.mpr (memoryLaw_takeLockout c _ _ _ h)
    all_goals exact leads_next.mpr h
  | conditionClearedEvent c =>
    show Leads MemoryLaw (execConditionClearedEvent c s)
    unfold execConditionClearedEvent
    split
    · exact leads_next.mpr (memoryLaw_askAgain c _ h)
    all_goals exact leads_next.mpr h
  | arcCleared c =>
    show Leads MemoryLaw (execArcCleared c s)
    unfold execArcCleared
    split
    · exact leads_next.mpr (memoryLaw_askAgain c _ h)
    all_goals exact leads_next.mpr h
  | holdoffExpiry c =>
    show Leads MemoryLaw (execHoldoffExpiry c s)
    unfold execHoldoffExpiry
    split
    · exact leads_next.mpr h
    · refine .ite (fun _ => ?_) (fun _ => leads_next.mpr h)
      exact .ite (fun _ => leads_next.mpr (h.keep (ps := [.chans, .journal]) (by simp) (by simp)))
        (fun _ => leads_next.mpr (memoryLaw_endHoldoff c none h))
  | confirmationExpiry c =>
    show Leads MemoryLaw (execConfirmationExpiry c s)
    unfold execConfirmationExpiry
    split
    · exact leads_next.mpr h
    · exact leads_ite_next (fun _ => memoryLaw_endConfirmation c h) h
  | interlockOpenedEvent c =>
    show Leads MemoryLaw (execInterlockOpenedEvent c s)
    unfold execInterlockOpenedEvent
    split
    · exact leads_next.mpr (memoryLaw_takeOpened c _ h)
    all_goals exact leads_next.mpr h
  | interlockClosedEvent c =>
    show Leads MemoryLaw (execInterlockClosedEvent c s)
    unfold execInterlockClosedEvent
    split
    · exact leads_next.mpr (memoryLaw_takeClosed c _ h)
    all_goals exact leads_next.mpr h
  | captureTrigger c => exact leads_ite_next (fun _ => memoryLaw_takeTrigger _ c h) h
  | journalRecord sender =>
    show Leads MemoryLaw (execJournalRecord sender s)
    unfold execJournalRecord
    split
    · exact leads_ite_next (fun _ => memoryLaw_numberRecord _ (s := s.setJournal _) h) h
    · exact leads_next.mpr h
  | statusRewrite fields =>
    show Leads MemoryLaw (execStatusRewrite fields s)
    unfold execStatusRewrite
    split
    · exact leads_next.mpr (memoryLaw_forEach _ (fun k _ => memoryLaw_copyField k) h)
    · exact leads_ite_next (fun _ => memoryLaw_forEach _ (fun k _ => memoryLaw_copyField k)
        (s := (bumpUpdateCount s).setStatus _) (memoryLaw_bumpUpdateCount h)) h
    · exact leads_next.mpr h
  | statusRewriteEnd =>
    show Leads MemoryLaw (execStatusRewriteEnd s)
    unfold execStatusRewriteEnd
    split
    · exact leads_next.mpr h
    · have hcopied : MemoryLaw (forEach (List.range (statusFields s).length) copyField s) :=
        memoryLaw_forEach _ (fun k _ => memoryLaw_copyField k) h
      exact leads_next.mpr ((memoryLaw_bumpUpdateCount hcopied).keep (ps := [.status]) (by simp) (by simp))
  | _ => exact fun t ht => reads_memoryLaw.keep_exec ht (by simp [footprint]) h

/-! ## The Capture Unit -/

theorem reads_captureLaw : Reads CaptureLaw [.captures] := fun s t hsame h => by
  have hcaptures : t.captures = s.captures := hsame .captures (by simp)
  have hbuffer : ∀ b, t.buffer b = s.buffer b := fun b => by rw [State.buffer, hcaptures]; rfl
  exact ⟨fun a b => by rw [hbuffer, hbuffer]; exact h.one a b, fun b => by rw [hbuffer]; exact h.known b,
    fun j => by rw [hcaptures]; exact h.filled j⟩

theorem CaptureLaw.keep {ps : List Part} (h : CaptureLaw s) (hsame : SameBut ps s t) (hcaptures : .captures ∉ ps) :
    CaptureLaw t :=
  reads_captureLaw.keep hsame (by simpa using hcaptures) h

/-- The lowest-numbered buffer in a state is in that state. -/
theorem findBuffer_some {st : BufferState} {b : BufferIx} (h : findBuffer st s = some b) : (s.buffer b).state = st := by
  simpa using List.find?_some h

theorem findBuffer_none {st : BufferState} (h : findBuffer st s = none) (b : BufferIx) : (s.buffer b).state ≠ st := by
  simpa using List.find?_eq_none.mp h b (List.mem_finRange b)

theorem changeBuffer_buffer_same (b : BufferIx) (x : CaptureBuffer) (s : State) :
    (changeBuffer b x s).buffer b = x := by
  rw [changeBuffer_eq, State.setMem_buffer, State.setBuffer_buffer_same]

theorem changeBuffer_buffer_ne {a b : BufferIx} (x : CaptureBuffer) (s : State) (h : a ≠ b) :
    (changeBuffer b x s).buffer a = s.buffer a := by
  rw [changeBuffer_eq, State.setMem_buffer, State.setBuffer_buffer_ne _ _ _ _ h]

@[simp] theorem changeBuffer_postCounts (b : BufferIx) (x : CaptureBuffer) (s : State) :
    (changeBuffer b x s).captures.postCounts = s.captures.postCounts := rfl

/-- A changed header keeps the law when it makes no second buffer FILLING and puts none without a trigger sequence in
READY or HELD. -/
theorem captureLaw_changeBuffer {b : BufferIx} {x : CaptureBuffer} (h : CaptureLaw s)
    (hone : x.state = .filling → ∀ a, (s.buffer a).state = .filling → a = b)
    (hknown : x.state = .ready ∨ x.state = .held → x.sequence ≠ 0) : CaptureLaw (changeBuffer b x s) := by
  refine ⟨fun a d ha hd => ?one, fun a ha => ?known, h.filled⟩
  case one =>
    by_cases hab : a = b <;> by_cases hdb : d = b
    · rw [hab, hdb]
    · subst hab
      rw [changeBuffer_buffer_same] at ha
      rw [changeBuffer_buffer_ne _ _ hdb] at hd
      exact (hone ha d hd).symm
    · subst hdb
      rw [changeBuffer_buffer_same] at hd
      rw [changeBuffer_buffer_ne _ _ hab] at ha
      exact hone hd a ha
    · rw [changeBuffer_buffer_ne _ _ hab] at ha
      rw [changeBuffer_buffer_ne _ _ hdb] at hd
      exact h.one a d ha hd
  case known =>
    by_cases hab : a = b
    · subst hab
      rw [changeBuffer_buffer_same] at ha ⊢
      exact hknown ha
    · rw [changeBuffer_buffer_ne _ _ hab] at ha ⊢
      exact h.known a ha

/-- R145: a buffer that goes to READY has its trigger sequence. -/
theorem captureLaw_finishFill (h : CaptureLaw s) : CaptureLaw (finishFill s) := by
  unfold finishFill
  split
  · exact h
  · split
    · rename_i hfull
      refine captureLaw_changeBuffer h (fun hst => nomatch hst) (fun _ => ?_)
      simp only [Bool.and_eq_true, bne_iff_ne] at hfull
      exact hfull.2
    · exact h

theorem captureLaw_fillCapture (j : CapturedIx) (value : Nat) (h : CaptureLaw s) : CaptureLaw (fillCapture j value s) := by
  unfold fillCapture
  split
  · exact h
  · simp only []
    split
    · rename_i hlt
      refine captureLaw_finishFill ⟨h.one, h.known, fun i => ?_⟩
      have := h.filled i
      simp only [State.setCaptures_captures, State.write_captures, look_put]
      split <;> omega
    · exact h

theorem captureLaw_writeTriggerSequence (b : BufferIx) {q : Seq} (hq : q ≠ 0) (h : CaptureLaw s) :
    CaptureLaw (writeTriggerSequence b q s) :=
  captureLaw_finishFill (captureLaw_changeBuffer h (fun hb a ha => h.one a b ha hb) (fun _ => hq))

theorem captureLaw_numberRecord (r : Record) (h : CaptureLaw s) : CaptureLaw (numberRecord r s) := by
  unfold numberRecord
  simp only []
  split
  · exact h.keep (ps := [.mem, .journal]) (by simp) (by simp)
  · exact captureLaw_writeTriggerSequence _ (nextSequence_ne_zero _)
      (h.keep (ps := [.mem, .journal]) (by simp) (by simp))

theorem captureLaw_numberHeldRecords (h : CaptureLaw s) : CaptureLaw (numberHeldRecords s) :=
  forEach_keeps CaptureLaw _ _ _ (fun w _ _ ht => captureLaw_numberRecord w.record ht)
    (h.keep (ps := [.journal]) (by simp) (by simp))

/-- R140: a buffer is started only while none is FILLING. -/
theorem not_filling_of_starts {b : BufferIx} (h : triggerOutcome s = .starts b) (a : BufferIx) :
    (s.buffer a).state ≠ .filling := by
  unfold triggerOutcome at h
  split at h
  · split at h
    · cases h
    · exact findBuffer_none ‹_› a
  · cases h

theorem captureLaw_takeTrigger (c : Channel) (h : CaptureLaw s) : CaptureLaw (takeTrigger (triggerOutcome s) c s) := by
  cases ho : triggerOutcome s with
  | noCapture => exact h
  | joins b => exact captureLaw_changeBuffer h (fun hb a ha => h.one a b ha hb) (h.known b)
  | starts b =>
    have hstarted := captureLaw_changeBuffer (b := b) (x := ⟨.filling, 0, s.now, 1#4 <<< c.val⟩) h
      (fun _ a ha => absurd ha (not_filling_of_starts ho a)) (fun hst => by rcases hst with hst | hst <;> cases hst)
    exact ⟨hstarted.one, hstarted.known, fun j => by simp [takeTrigger, startCapture]⟩

theorem captureLaw_holdCapture (a : Arguments) (h : CaptureLaw s) : CaptureLaw (holdCapture a s).1 := by
  unfold holdCapture
  split
  · exact h
  · split
    · exact captureLaw_changeBuffer h (fun hst => nomatch hst) (fun _ => h.known _ (.inl ‹_›))
    all_goals exact h

theorem captureLaw_releaseCapture (a : Arguments) (h : CaptureLaw s) : CaptureLaw (releaseCapture a s).1 := by
  unfold releaseCapture
  split
  · exact h
  · exact captureLaw_changeBuffer h (fun hst => nomatch hst) (fun hst => by rcases hst with hst | hst <;> cases hst)

/-- R139: the Capture Unit's reset value keeps its law. -/
theorem captureLaw_of_reset (h : t.captures = CaptureUnit.reset) : CaptureLaw t := by
  have hbuffer : ∀ b, t.buffer b = CaptureBuffer.reset := fun b => by rw [State.buffer, h]; exact look_replicate _ b
  refine ⟨fun a b ha => ?_, fun b hb => ?_, fun j => ?_⟩
  · rw [hbuffer] at ha; cases ha
  · rw [hbuffer] at hb; rcases hb with hb | hb <;> cases hb
  · rw [h]; simp [CaptureUnit.reset]

/-- R139, R140, R144, R147: every command keeps the law of the Capture Unit. -/
theorem exec_leads_captureLaw (cmd : Instr) (hvisit : cmd ≠ .slotVisit) (h : CaptureLaw s) :
    Leads CaptureLaw (exec cmd s) := by
  cases cmd with
  | powerOnReset _ _ | controllerReset _ _ | backplaneResetRelease _ | supplyLoss =>
    exact leads_of_isReset rfl (fun _ => captureLaw_of_reset rfl) (fun _ _ => captureLaw_of_reset rfl)
      (captureLaw_of_reset rfl) h
  | initializationEnd =>
    have hready : CaptureLaw (becomeReady s) :=
      h.keep (ps := [.phase, .mem, .initialized, .status]) ((sameBut_becomeReady (by simp)).mpr (.refl _ _)) (by simp)
    rw [exec_initializationEnd_eq]
    exact leads_ite_next (fun _ => captureLaw_numberHeldRecords hready) h
  | slotVisit => exact absurd rfl hvisit
  | holdCapture =>
    exact leads_next.mpr (reads_captureLaw.keep_visitFor (by simp) _ (fun a _ => captureLaw_holdCapture a) h)
  | releaseCapture =>
    exact leads_next.mpr (reads_captureLaw.keep_visitFor (by simp) _ (fun a _ => captureLaw_releaseCapture a) h)
  | sampleArrival point input order =>
    refine leads_ite_next (fun _ => ?_) h
    have hevaluated : CaptureLaw (evaluate point order (takeCount point (saturate input) s)) :=
      h.keep (ps := [.scanner, .entries, .links, .foldback, .trips, .journal]) (by simp) (by simp)
    unfold captureArrival
    split
    · exact hevaluated
    · exact captureLaw_fillCapture _ _ (hevaluated.keep (ps := [.scanner]) (by simp [pushRing]) (by simp))
  | captureTrigger c =>
    exact leads_ite_next (fun _ => (captureLaw_takeTrigger c h).keep (ps := [.journal]) (by simp) (by simp)) h
  | journalRecord sender =>
    show Leads CaptureLaw (execJournalRecord sender s)
    unfold execJournalRecord
    split
    · exact leads_ite_next (fun _ => captureLaw_numberRecord _ (h.keep (ps := [.journal]) (by simp) (by simp))) h
    · exact leads_next.mpr h
  | _ => exact fun t ht => reads_captureLaw.keep_exec ht (by simp [footprint]) h

/-! ## The update count -/

theorem reads_statusLaw : Reads StatusLaw [.status] := fun s t hsame h => by
  have hstatus : t.status = s.status := hsame .status (by simp)
  rwa [StatusLaw, hstatus]

/-- R168: at reset no rewrite is in progress, and the count is 0. -/
theorem statusLaw_of_reset (h : t.status = StatusWriter.reset) : StatusLaw t := by
  rw [StatusLaw, h]
  rfl

/-- R168: a count that rises by one changes its parity. -/
theorem getLsbD_zero_add_one (x : BitVec 32) : (x + 1).getLsbD 0 = !x.getLsbD 0 := by
  have hone : (1 : BitVec 32).toNat = 1 := rfl
  simp only [BitVec.getLsbD, Nat.testBit_zero, BitVec.toNat_add, hone]
  rcases Nat.mod_two_eq_zero_or_one x.toNat with h | h
  · rw [h, decide_eq_true (by omega)]; rfl
  · rw [h, decide_eq_false (by omega)]; rfl

theorem copyField_status_count (k : Nat) (s : State) : (copyField k s).status.count = s.status.count := by
  unfold copyField
  split
  · split <;> rfl
  · rfl

theorem copyField_copied_isSome (k : Nat) (s : State) :
    (copyField k s).status.copied.isSome = s.status.copied.isSome := by
  unfold copyField
  split
  · rename_i hcopied _
    split
    · rfl
    · simp [hcopied]
  · rfl

/-- R168: the copies of a rewrite leave the count, and the rewrite in progress. -/
theorem statusLaw_copyFields (fields : List Nat) (h : StatusLaw s) : StatusLaw (forEach fields copyField s) :=
  forEach_keeps StatusLaw copyField fields s (fun k _ u hu => by
    rw [StatusLaw, copyField_status_count, copyField_copied_isSome]; exact hu) h

theorem forEach_copyField_copied_isSome (fields : List Nat) (s : State) :
    (forEach fields copyField s).status.copied.isSome = s.status.copied.isSome :=
  forEach_same (·.status.copied.isSome) copyField fields s (fun k _ u => copyField_copied_isSome k u)

/-- R168: every command keeps the parity of the update count. -/
theorem exec_leads_statusLaw (cmd : Instr) (hvisit : cmd ≠ .slotVisit) (h : StatusLaw s) :
    Leads StatusLaw (exec cmd s) := by
  cases cmd with
  | powerOnReset _ _ | controllerReset _ _ | backplaneResetRelease _ | supplyLoss =>
    exact leads_of_isReset rfl (fun _ => statusLaw_of_reset rfl) (fun _ _ => statusLaw_of_reset rfl)
      (statusLaw_of_reset rfl) h
  | initializationEnd =>
    have hareas : StatusLaw (finishAreas s) :=
      reads_statusLaw.keep (ps := [.mem, .initialized]) (by simp) (by simp) h
    have hready : StatusLaw (becomeReady s) := hareas
    rw [exec_initializationEnd_eq]
    exact leads_ite_next
      (fun _ => reads_statusLaw.keep (ps := [.mem, .captures, .journal]) (by simp) (by simp) hready) h
  | slotVisit => exact absurd rfl hvisit
  | statusRewrite fields =>
    show Leads StatusLaw (execStatusRewrite fields s)
    unfold execStatusRewrite
    split
    · exact leads_next.mpr (statusLaw_copyFields fields h)
    · rename_i hcopied
      refine leads_ite_next (fun _ => statusLaw_copyFields fields ?_) h
      have hodd : (s.status.count + 1).getLsbD 0 = true := by
        rw [getLsbD_zero_add_one, h, hcopied]; rfl
      exact hodd
    · exact leads_next.mpr h
  | statusRewriteEnd =>
    show Leads StatusLaw (execStatusRewriteEnd s)
    unfold execStatusRewriteEnd
    split
    · exact leads_next.mpr h
    · rename_i hcopied
      have hcopied' := forEach_copyField_copied_isSome (List.range (statusFields s).length) s
      have hkept : StatusLaw (forEach (List.range (statusFields s).length) copyField s) := statusLaw_copyFields _ h
      have heven : ((forEach (List.range (statusFields s).length) copyField s).status.count + 1).getLsbD 0 = false := by
        rw [getLsbD_zero_add_one, hkept, hcopied', hcopied]; rfl
      exact leads_next.mpr heven
  | _ => exact fun t ht => reads_statusLaw.keep_exec ht (by simp [footprint]) h

/-- Settles O55: each law reads its own part of the card, and every command that touches that part keeps it. -/
theorem stepKeepsMemoryCaptureAndStatusLaws : Obligations.StepKeepsMemoryCaptureAndStatusLaws := by
  intro s t ht
  refine ⟨fun h => ?memory, fun h => ?captures, fun h => ?status⟩
  case memory =>
    exact reads_memoryLaw.keep_step (by simp) (fun cmd s t hcmd hs => exec_leads_memoryLaw cmd hcmd hs t) s t h ht
  case captures =>
    exact reads_captureLaw.keep_step (by simp) (fun cmd s t hcmd hs => exec_leads_captureLaw cmd hcmd hs t) s t h ht
  case status =>
    exact reads_statusLaw.keep_step (by simp) (fun cmd s t hcmd hs => exec_leads_statusLaw cmd hcmd hs t) s t h ht

end Sys2Proof.Machine


/-! The engine (chapter 5): the grant, the completion of a ramp, the preemption and the step report. -/

namespace Sys2Proof.Machine

variable {s : State} {c : Channel}

/-- R73: what recording a channel's change adds. -/
theorem recordChange_sent (c : Channel) (after : Option Stamp) (s : State) :
    Sent s (recordChange c after s) (.channel c) after false
      { time := s.now, kind := .channelChanged, channel := some c, newState := .channel (s.chan c).state
        strikeCount := (s.strike c).times.length } := rfl

@[simp] theorem holdEngine_arbiter (c : Channel) (s : State) :
    (holdEngine c s).arbiter = { s.arbiter with
      high := without c s.arbiter.high, low := without c s.arbiter.low
      engine := .held c, steps := 0, preemptionSent := false } := rfl

theorem exec_grantTaken_of_not_granted (h : s.arbiter.engine ≠ .granted c) : exec (.grantTaken c) s = .next s :=
  if_neg h

/-- R55: the grant taken in QUEUED. -/
def takeGrantQueued (c : Channel) (s : State) : State :=
  recordChange c none (holdEngine c ((s.setResolver c { s.resolver c with ramp := some 0 }).setChan c
    { s.chan c with state := .ramping, mute := false }))

/-- R55: the grant taken in PAUSED. -/
def takeGrantPaused (c : Channel) (s : State) : State := recordChange c none (holdEngine c (setState c .ramping s))

theorem exec_grantTaken_of_queued (h : s.arbiter.engine = .granted c) (hst : (s.chan c).state = .queued) :
    exec (.grantTaken c) s = .next (takeGrantQueued c s) := by
  simp [exec, execGrantTaken, h, hst, takeGrantQueued]

theorem exec_grantTaken_of_paused (h : s.arbiter.engine = .granted c) (hst : (s.chan c).state = .paused) :
    exec (.grantTaken c) s = .next (takeGrantPaused c s) := by
  simp [exec, execGrantTaken, h, hst, takeGrantPaused]

/-- R98: the grant handed back. -/
theorem exec_grantTaken_of_elsewhere (h : s.arbiter.engine = .granted c) (hq : (s.chan c).state ≠ .queued)
    (hp : (s.chan c).state ≠ .paused) :
    exec (.grantTaken c) s = .next (offerGrant (s.setArbiter { s.arbiter with engine := .free })) := by
  cases hst : (s.chan c).state <;> simp_all [exec, execGrantTaken]

/-- Settles O41: the three answers of GRANT_TAKEN, by the channel's state. -/
theorem grantIsTaken : Obligations.GrantIsTaken := by
  intro s c
  refine ⟨fun hgranted hst => ?taken, fun hgranted hq hp => ?handedBack, exec_grantTaken_of_not_granted⟩
  case taken =>
    rcases hst with hst | hst
    · refine ⟨_, exec_grantTaken_of_queued hgranted hst, ?_, fun d hd => ?_, ?_, ?_, ?_, ?_⟩
      · rfl
      · simp [takeGrantQueued, recordChange, sendChannel, sendRecord, holdEngine, leaveQueue, hd]
      · simp [takeGrantQueued, recordChange, sendChannel, sendRecord, holdEngine, leaveQueue, hst]
      · simp [takeGrantQueued, recordChange, sendChannel, sendRecord, holdEngine, leaveQueue, hst]
      · rfl
      · simp [takeGrantQueued, recordChange, sendChannel, sendRecord, holdEngine, leaveQueue, Sent, channelRecord]
    · refine ⟨_, exec_grantTaken_of_paused hgranted hst, ?_, fun d hd => ?_, ?_, ?_, ?_, ?_⟩
      · rfl
      · simp [takeGrantPaused, recordChange, sendChannel, sendRecord, holdEngine, leaveQueue, setState, hd]
      · simp [takeGrantPaused, recordChange, sendChannel, sendRecord, holdEngine, leaveQueue, setState, hst]
      · simp [takeGrantPaused, recordChange, sendChannel, sendRecord, holdEngine, leaveQueue, setState, hst]
      · rfl
      · simp [takeGrantPaused, recordChange, sendChannel, sendRecord, holdEngine, leaveQueue, setState, Sent,
          channelRecord]
  case handedBack =>
    rw [exec_grantTaken_of_elsewhere hgranted hq hp, offerGrant_eq]
    rfl

end Sys2Proof.Machine


/-! Completions, preemptions and step reports (R56, R57, R104, R105). -/

namespace Sys2Proof.Machine

variable {s : State} {c : Channel}

/-! ## Ramp completions -/

/-- R56: a RAMPING channel goes ON. -/
def goOn (c : Channel) (s : State) : State :=
  let s := cut c (dropRamp c (setState c .on s))
  offerGrant (releaseEngine c (sendChannel c none (channelRecord c .restored s) s))

theorem exec_rampCompletion_of_ramping {n : Nat} (h : (s.link c).completions = n + 1)
    (hst : (s.chan c).state = .ramping) :
    exec (.rampCompletion c) s = .next (goOn c (s.setLink c { s.link c with completions := n })) := by
  simp [exec, execRampCompletion, h, hst, goOn]

/-- A stale completion is taken with no effect (log 19). -/
theorem exec_rampCompletion_of_elsewhere {n : Nat} (h : (s.link c).completions = n + 1)
    (hst : (s.chan c).state ≠ .ramping) :
    exec (.rampCompletion c) s = .next (s.setLink c { s.link c with completions := n }) := by
  cases hst' : (s.chan c).state <;> simp_all [exec, execRampCompletion]

/-- R56, R99: what going ON changes. -/
theorem goOn_eq (c : Channel) (s : State) :
    goOn c s = (((s.setChan c { s.chan c with state := .on }).setResolver c { s.resolver c with
        ramp := none
        drive := if (s.chan c).mute = false then min (s.resolver c).drive { s.resolver c with ramp := none }.resolved
          else (s.resolver c).drive }).setArbiter { s.arbiter with
        engine := grantFrom (releasedBy c s.arbiter.engine) s.arbiter.high s.arbiter.low }).setJournal { s.journal with
          waiting := s.journal.waiting ++ [⟨s.journal.sent, .channel c, none,
            { time := s.now, kind := .restored, channel := some c, newState := .channel .on
              strikeCount := (s.strike c).times.length }, false⟩]
          sent := s.journal.sent + 1 } := by
  simp only [goOn, cut_eq, offerGrant_eq, releaseEngine_eq]
  apply State.same <;> simp [sendChannel, sendRecord, channelRecord, setState, dropRamp]

/-! ## Preemptions -/

/-- R57, R105: a RAMPING channel of the LOW group is paused at the head of its group. -/
def pause (c : Channel) (s : State) : State :=
  offerGrant (recordChange c none (joinHead c (releaseEngine c (setState c .paused s))))

theorem exec_preemption_of_low {n : Nat} {p : Profile} (h : (s.link c).preemptions = n + 1)
    (hst : (s.chan c).state = .ramping) (hp : (s.chan c).profile = some p) (hlow : p.group = 1) :
    exec (.preemption c) s = .next (pause c (s.setLink c { s.link c with preemptions := n })) := by
  simp [exec, execPreemption, h, hst, pause, profileOf, hp, Profile.isLow, hlow]

/-- A channel outside RAMPING, or of the HIGH group, takes a preemption with no effect (log 19). -/
theorem exec_preemption_of_elsewhere {n : Nat} (h : (s.link c).preemptions = n + 1)
    (hst : (s.chan c).state ≠ .ramping ∨ ∀ p, (s.chan c).profile = some p → p.group ≠ 1) :
    exec (.preemption c) s = .next (s.setLink c { s.link c with preemptions := n }) := by
  show execPreemption c s = _
  unfold execPreemption
  rw [h]
  cases hst' : (s.chan c).state with
  | ramping =>
    have hhigh : (profileOf (s.setLink c { s.link c with preemptions := n }) c).isLow = false := by
      cases hp : (s.chan c).profile with
      | none => simp [profileOf, hp, Profile.isLow, Profile.blank]
      | some p => simpa [profileOf, hp, Profile.isLow] using hst.resolve_left (not_not_intro hst') p hp
    simp [hst', hhigh]
  | _ => simp [hst']

/-- R57, R99, R105: what pausing changes. -/
theorem pause_eq (c : Channel) (s : State) :
    pause c s = ((s.setChan c { s.chan c with state := .paused }).setArbiter { s.arbiter with
        low := c :: s.arbiter.low
        engine := grantFrom (releasedBy c s.arbiter.engine) s.arbiter.high (c :: s.arbiter.low) }).setJournal
        { s.journal with
          waiting := s.journal.waiting ++ [⟨s.journal.sent, .channel c, none,
            { time := s.now, kind := .channelChanged, channel := some c, newState := .channel .paused
              strikeCount := (s.strike c).times.length }, false⟩]
          sent := s.journal.sent + 1 } := by
  simp only [pause, offerGrant_eq, releaseEngine_eq]
  apply State.same <;> simp [recordChange, sendChannel, sendRecord, channelRecord, setState, joinHead]

/-! ## Step reports -/

/-- R104: the preemption test, for a channel with any profile or none: one without is of the HIGH group. -/
theorem preemptionDue_iff_exists (c : Channel) (s : State) :
    preemptionDue c s = true ↔ s.arbiter.engine = .held c
      ∧ (∃ p, (s.chan c).profile = some p ∧ p.group = 1) ∧ s.arbiter.preemptionSent = false
      ∧ s.evaluator.settings.preemptHold ≠ 0 ∧ s.evaluator.settings.preemptHold ≤ s.arbiter.steps
      ∧ s.arbiter.high ≠ [] := by
  cases hp : (s.chan c).profile with
  | none => simp [preemptionDue, profileOf, hp, Profile.isLow, Profile.blank]
  | some p => simp [preemptionDue_iff c s p hp]

/-- R104: what a step report changes, the preemption being due or not. -/
theorem exec_stepReport_of_report {n : Nat} (h : (s.link c).reports = n + 1) :
    exec (.stepReport c) s = .next ((s.setLink c { s.link c with
        reports := n, preemptions := (s.link c).preemptions + if preemptionDue c s = true then 1 else 0 }).setArbiter
      { s.arbiter with preemptionSent := s.arbiter.preemptionSent || preemptionDue c s }) := by
  have hdue : preemptionDue c (s.setLink c { s.link c with reports := n }) = preemptionDue c s := rfl
  show execStepReport c s = _
  unfold execStepReport
  simp only [h, hdue]
  by_cases hd : preemptionDue c s = true <;> simp only [hd, if_true, if_false, Bool.false_eq_true]
  · exact congrArg _ (by apply State.same <;> simp [deliverPreemption])
  · exact congrArg _ (by apply State.same <;> simp)

/-- Settles O42: by what the channel does with the completion or the preemption, and by whether the preemption is due. -/
theorem engineHolderIsServed : Obligations.EngineHolderIsServed := by
  intro s c n
  refine ⟨fun h hst => ?completion, fun h hst => ?staleCompletion, fun p h hst hp hlow => ?preemption,
    fun h hst => ?stalePreemption, fun h => ?report⟩
  case completion =>
    refine ⟨_, exec_rampCompletion_of_ramping h hst, ?_⟩
    rw [goOn_eq]
    exact ⟨rfl, fun d hd => by simp [hd], by simp, by simp, by simp,
      fun hmute => by simp [hmute, DriveResolver.resolved, DriveResolver.levels], by simp, by simp [Sent]⟩
  case staleCompletion =>
    exact ⟨_, exec_rampCompletion_of_elsewhere h hst, rfl, fun d hd => by simp [hd], by simp⟩
  case preemption =>
    refine ⟨_, exec_preemption_of_low h hst hp hlow, ?_⟩
    rw [pause_eq]
    exact ⟨rfl, fun d hd => by simp [hd], by simp, by simp, by simp, by simp [Sent]⟩
  case stalePreemption =>
    exact ⟨_, exec_preemption_of_elsewhere h hst, rfl, fun d hd => by simp [hd], by simp⟩
  case report =>
    exact ⟨_, _, exec_stepReport_of_report h, preemptionDue_iff_exists c s, rfl, fun d hd => by simp [hd], by simp,
      by simp⟩

end Sys2Proof.Machine


/-! What a Channel Controller does with the events delivered to it: strikes, lockouts, openings, closures, clearings,
and the end of its timers (R58 to R70, R86). -/

namespace Sys2Proof.Machine

variable {s : State} {c : Channel}

/-! ## Strikes (R58 to R62) -/

theorem exec_strike_of_next {link : StrikeLink} {cause : Cause} {after : Option Stamp} {left : ChannelLinks}
    (h : nextStrike s c link = some (cause, after, left)) :
    exec (.strike c link) s = .next (takeStrike c cause after (s.setLink c left)) :=
  execStrike_next s c link cause after left h

theorem takeStrike_of_live (cause : Cause) (after : Option Stamp) (h : (s.chan c).state.live = true) :
    takeStrike c cause after s = liveStrike c cause after s := by
  cases hst : (s.chan c).state <;> simp_all [takeStrike, ChannelState.live]

/-- R61: a strike in HOLDOFF starts the holdoff again and is recorded. -/
theorem takeStrike_of_holdoff (cause : Cause) (after : Option Stamp) (h : (s.chan c).state = .holdoff) :
    takeStrike c cause after s = mutedStrike c cause after (s.setChan c { s.chan c with
      holdoff := some (later s.now (profileOf s c).holdoffTime), extended := false }) := by
  simp [takeStrike, h]

/-- R62. -/
theorem takeStrike_of_queue (cause : Cause) (after : Option Stamp)
    (h : (s.chan c).state = .queued ∨ (s.chan c).state = .confirmWait) :
    takeStrike c cause after s = mutedStrike c cause after s := by
  rcases h with h | h <;> simp [takeStrike, h]

/-- R62. -/
theorem takeStrike_of_out (cause : Cause) (after : Option Stamp)
    (h : (s.chan c).state = .off ∨ (s.chan c).state = .lockout ∨ (s.chan c).state = .interlocked) :
    takeStrike c cause after s = s := by
  rcases h with h | h | h <;> simp [takeStrike, h]

/-- Settles O43: by the closed form of a live strike. -/
theorem liveStrikesAreTaken : Obligations.LiveStrikesAreTaken := by
  intro s c link p cause after left hnext hp hlive
  refine ⟨_, decide ((recentStrikes s c p).length + 1 = p.lockoutThreshold), exec_strike_of_next hnext,
    decide_eq_true_iff, ?_⟩
  have hrecent : recentStrikes (s.setLink c left) c p = recentStrikes s c p := rfl
  rw [takeStrike_of_live cause after (by simpa using hlive), liveStrike_eq c cause after _ p (by simpa using hp)]
  simp only [hrecent]
  refine ⟨rfl, fun d hd => ?others, ?link, ?state, ?profile, ?mute, fun h => ?unlocked, fun h => ?locked, ?strike,
    ?resolver, rfl, ?sent⟩
  case others => simp [State.chan, State.strike, State.resolver, State.monitor, State.link, State.setLink, hd]
  case link => simp [State.link, State.setLink]
  case state => simp [State.chan, State.setLink]
  case profile => simpa [State.chan, State.setLink] using hp
  case mute => simp [State.chan, State.setLink]
  case unlocked =>
    rw [decide_eq_false_iff_not] at h
    simp [State.chan, State.setLink, h]
  case locked =>
    rw [decide_eq_true_iff] at h
    simp [State.chan, State.setLink, h]
  case strike => simp [State.strike, State.setLink]
  case resolver => simp [State.resolver, State.setLink]
  case sent => cases cause <;> simp [Sent, withCause, Cause.triggers, State.setLink]

/-- Settles O44: by the channel's state. -/
theorem otherStrikesAreTaken : Obligations.OtherStrikesAreTaken := by
  intro s c link cause after left hnext
  refine ⟨fun p hp hst => ⟨_, exec_strike_of_next hnext, ?muted⟩, fun hst => ⟨_, exec_strike_of_next hnext, ?out⟩⟩
  case muted =>
    by_cases hholdoff : (s.chan c).state = .holdoff
    · have hprofile : profileOf (s.setLink c left) c = p := profileOf_of_some hp
      rw [takeStrike_of_holdoff cause after (by simpa using hholdoff), hprofile]
      refine ⟨rfl, fun d hd => ?_, ?_, ?_, ?_⟩
      · simp [mutedStrike, sendChannel, sendRecord, hd]
      · simp [mutedStrike, sendChannel, sendRecord]
      · simp [mutedStrike, sendChannel, sendRecord, hholdoff, later]
      · cases cause <;> simp [Sent, mutedStrike, sendChannel, sendRecord, withCause, channelRecord, hholdoff]
    · rw [takeStrike_of_queue cause after (by simpa using hst.resolve_left hholdoff)]
      refine ⟨rfl, fun d hd => ?_, ?_, ?_, ?_⟩
      · simp [mutedStrike, sendChannel, sendRecord, hd]
      · simp [mutedStrike, sendChannel, sendRecord]
      · simp [mutedStrike, sendChannel, sendRecord, hholdoff]
      · cases cause <;> simp [Sent, mutedStrike, sendChannel, sendRecord, withCause, channelRecord]
  case out =>
    rw [takeStrike_of_out cause after (by simpa using hst)]
    exact ⟨rfl, setLink_otherChannels s c left, by simp⟩

/-! ## Lockout actions and openings (R68, R69) -/

/-- R68, R69: out of whatever the channel was doing, with its record. -/
def departTo (c : Channel) (goal : ChannelState) (after : Option Stamp) (awaits : Bool) (r : Record) (s : State) :
    State :=
  offerGrant (sendRecord (.channel c) after awaits r (setState c goal (depart c s)))

@[simp] theorem depart_now (c : Channel) (s : State) : (depart c s).now = s.now := by rw [depart_eq]; simp

@[simp] theorem depart_times (c : Channel) (s : State) : ((depart c s).strike c).times = (s.strike c).times := by
  rw [depart_eq]; simp

/-- R68, R69: what a departure changes. -/
theorem departTo_eq (c : Channel) (goal : ChannelState) (after : Option Stamp) (awaits : Bool) (r : Record)
    (s : State) :
    departTo c goal after awaits r s = { s with
      mem := (depart c s).mem
      chans := put s.chans c { s.chan c with state := goal, mute := true, holdoff := none, extended := false }
      strikes := put s.strikes c { s.strike c with
        pending := false, timer := if (s.strike c).pending = true then none else (s.strike c).timer }
      resolvers := put s.resolvers c { s.resolver c with drive := 0, ramp := none }
      arbiter := { s.arbiter with
        high := without c s.arbiter.high, low := without c s.arbiter.low
        engine := grantFrom (releasedBy c s.arbiter.engine) (without c s.arbiter.high) (without c s.arbiter.low) }
      journal := { s.journal with
        waiting := s.journal.waiting ++ [⟨s.journal.sent, .channel c, after, r, awaits⟩]
        sent := s.journal.sent + 1 } } := by
  have h := depart_eq c s
  unfold departTo
  generalize (depart c s).mem = m at h ⊢
  rw [h, offerGrant_eq]
  apply State.same <;> simp [sendRecord, setState]

theorem exec_lockoutAction_of {e : EntryIx} {capture : Bool} {sent : Nat} {rest : List EvaluatorDelivery}
    (h : (s.link c).fromEvaluator = ⟨.lockout e capture, sent⟩ :: rest) :
    exec (.lockoutAction c) s = .next (takeLockout c e capture (some ⟨.evaluator, sent⟩)
      (s.setLink c { s.link c with fromEvaluator := rest })) := by
  simp [exec, execLockoutAction, h]

theorem exec_interlockOpenedEvent_of {sent : Nat} {rest : List ScannerDelivery}
    (h : (s.link c).fromScanner = ⟨.opened, sent⟩ :: rest) :
    exec (.interlockOpenedEvent c) s = .next (takeOpened c (some ⟨.scanner, sent⟩)
      (s.setLink c { s.link c with fromScanner := rest })) := by
  simp [exec, execInterlockOpenedEvent, h]

theorem takeLockout_of_out (e : EntryIx) (capture : Bool) (after : Option Stamp)
    (h : (s.chan c).state = .off ∨ (s.chan c).state = .lockout) : takeLockout c e capture after s = s := by
  rcases h with h | h <;> simp [takeLockout, h]

theorem takeLockout_of_in (e : EntryIx) (capture : Bool) (after : Option Stamp)
    (h : ¬((s.chan c).state = .off ∨ (s.chan c).state = .lockout)) :
    takeLockout c e capture after s = departTo c .lockout after ((s.chan c).state.live && capture)
      { time := s.now, kind := .lockout, channel := some c, condition := some e, newState := .channel .lockout
        strikeCount := (s.strike c).times.length, withdrawn := (s.strike c).pending } s := by
  cases hst : (s.chan c).state <;> simp_all [takeLockout, departTo, channelRecord, setState]

theorem takeOpened_of_out (after : Option Stamp)
    (h : (s.chan c).state = .off ∨ (s.chan c).state = .lockout ∨ (s.chan c).state = .interlocked) :
    takeOpened c after s = s := by
  rcases h with h | h | h <;> simp [takeOpened, h]

theorem takeOpened_of_in (after : Option Stamp)
    (h : ¬((s.chan c).state = .off ∨ (s.chan c).state = .lockout ∨ (s.chan c).state = .interlocked)) :
    takeOpened c after s = departTo c .interlocked after false
      { time := s.now, kind := .channelChanged, channel := some c, newState := .channel .interlocked
        strikeCount := (s.strike c).times.length, withdrawn := (s.strike c).pending } s := by
  cases hst : (s.chan c).state <;> simp_all [takeOpened, departTo, channelRecord, setState, sendChannel]

/-- Settles O45: both events are the one departure, to LOCKOUT or to INTERLOCKED. -/
theorem lockoutsAndOpeningsAreTaken : Obligations.LockoutsAndOpeningsAreTaken := by
  intro s c cmd left goal after awaits r hcmd
  have hstays : ((s.chan c).state = .off ∨ (s.chan c).state = .lockout
      ∨ ((s.chan c).state = .interlocked ∧ goal = .interlocked)) → exec cmd s = .next (s.setLink c left) := by
    intro hst
    rcases hcmd with ⟨e, capture, sent, rest, rfl, hlink, rfl, rfl, rfl, rfl, rfl⟩
      | ⟨sent, rest, rfl, hlink, rfl, rfl, rfl, rfl, rfl⟩
    · rw [exec_lockoutAction_of hlink, takeLockout_of_out]
      simpa using hst
    · rw [exec_interlockOpenedEvent_of hlink, takeOpened_of_out]
      simpa using hst
  have hdeparts : ¬((s.chan c).state = .off ∨ (s.chan c).state = .lockout
      ∨ ((s.chan c).state = .interlocked ∧ goal = .interlocked)) →
      exec cmd s = .next (departTo c goal after awaits r (s.setLink c left)) := by
    intro hst
    rcases hcmd with ⟨e, capture, sent, rest, rfl, hlink, rfl, rfl, rfl, rfl, rfl⟩
      | ⟨sent, rest, rfl, hlink, rfl, rfl, rfl, rfl, rfl⟩
    · rw [exec_lockoutAction_of hlink, takeLockout_of_in]
      · simp
      · simpa using hst
    · rw [exec_interlockOpenedEvent_of hlink, takeOpened_of_in]
      · simp
      · simpa using hst
  refine ⟨fun hst => ⟨_, hstays hst, rfl, setLink_otherChannels s c left, by simp⟩, fun hst =>
    ⟨_, hdeparts hst, ?_⟩⟩
  have hmem := depart_memoryBut c (s.setLink c left)
  have hrecord := depart_state c (s.setLink c left)
  rw [departTo_eq]
  refine ⟨rfl, fun d hd => ?others, ?link, ?chan, ?strike, ?resolver, rfl, rfl, hmem, hrecord⟩
  case others => simp [State.chan, State.strike, State.resolver, State.monitor, State.link, State.setLink, hd]
  case link => simp [State.link, State.setLink]
  case chan => exact look_put_same _ _ _
  case strike => exact look_put_same _ _ _
  case resolver => exact look_put_same _ _ _

/-! ## What holds a channel in HOLDOFF (R65) -/

theorem find?_finRange_eq_some {n : Nat} (holds : Fin n → Bool) (i : Fin n) :
    (List.finRange n).find? holds = some i ↔ holds i = true ∧ ∀ j, j < i → holds j = false := by
  rw [List.find?_eq_some_iff_getElem]
  simp only [List.getElem_finRange, List.length_finRange, Bool.not_eq_true']
  constructor
  · rintro ⟨hi, k, hk, rfl, hfirst⟩
    exact ⟨hi, fun j hj => hfirst j.val hj⟩
  · rintro ⟨hi, hfirst⟩
    exact ⟨hi, i.val, i.isLt, by simp, fun j hj => hfirst _ hj⟩

theorem find?_finRange_isSome {n : Nat} (holds : Fin n → Bool) :
    ((List.finRange n).find? holds).isSome = true ↔ ∃ i, holds i = true := by
  simp [List.find?_isSome]

theorem entryBearing_isSome (a : Action) (c : Channel) (s : State) :
    (entryBearing a c s).isSome = true ↔ ∃ i, bearsOn a c (s.entry i) = true :=
  find?_finRange_isSome (fun i => bearsOn a c (s.entry i))

theorem causeHolds_iff (c : Channel) (s : State) :
    causeHolds c s = true ↔ (∃ l, arcHolds s l c = true) ∨ ∃ i, bearsOn .strike c (s.entry i) = true := by
  rw [causeHolds, Bool.or_eq_true, entryBearing_isSome]
  exact or_congr (find?_finRange_isSome (fun l => arcHolds s l c)) Iff.rfl

theorem causeHolds_eq_false_iff (c : Channel) (s : State) :
    causeHolds c s = false ↔ (∀ l, arcHolds s l c = false) ∧ ∀ i, bearsOn .strike c (s.entry i) = false := by
  rw [← Bool.not_eq_true, causeHolds_iff]
  simp

/-! ## The end of a holdoff (R63 to R66) -/

theorem exec_holdoffExpiry_early {finish : Time} (h : (s.chan c).holdoff = some finish)
    (hearly : 2147483648 ≤ (s.now - finish).toNat) : exec (.holdoffExpiry c) s = .next s := by
  simp [exec, execHoldoffExpiry, h, not_reached_of_le hearly]

theorem exec_holdoffExpiry_of {finish : Time} (hst : (s.chan c).state = .holdoff)
    (h : (s.chan c).holdoff = some finish) (hreached : (s.now - finish).toNat < 2147483648) :
    exec (.holdoffExpiry c) s =
      if causeHolds c s then .next (extendHoldoff c s) else .next (endHoldoff c none s) := by
  simp [exec, execHoldoffExpiry, h, hst, reached_of_lt hreached]

/-- R64: a holdoff's end is the verdict, the timer and the mark apart. -/
theorem endHoldoff_spec (after : Option Stamp) {p : Profile} (hp : (s.chan c).profile = some p) :
    endHoldoff c after s =
      { s with mem := (endHoldoff c after s).mem, chans := (endHoldoff c after s).chans
               strikes := (endHoldoff c after s).strikes, arbiter := (endHoldoff c after s).arbiter
               journal := (endHoldoff c after s).journal }
    ∧ OtherChannels c s (endHoldoff c after s)
    ∧ (endHoldoff c after s).chan c =
        { s.chan c with state := ((endHoldoff c after s).chan c).state, holdoff := none, extended := false }
    ∧ (endHoldoff c after s).link c = s.link c
    ∧ Judged s (endHoldoff c after s) c p (s.chan c).extended after := by
  have hjudged := verdict_judged c (s.chan c).extended after (stopHoldoff c s) p (by simpa [stopHoldoff] using hp)
  obtain ⟨hframe, hothers, hchan, -, hlink⟩ := verdict_frame c (s.chan c).extended after (stopHoldoff c s)
  have hchan' := hchan
  simp only [stopHoldoff, State.setChan_chan_same] at hchan'
  refine ⟨hframe, fun d hd => ?_, hchan', hlink, ⟨hjudged.asked, hjudged.queued⟩⟩
  have hd' : (stopHoldoff c s).chan d = s.chan d := by simp [stopHoldoff, hd]
  have hsame := hothers d hd
  rwa [hd'] at hsame

/-- R65: the record that says what holds the channel. -/
theorem extendHoldoff_sent (h : (s.chan c).state = .holdoff) :
    Sent s (extendHoldoff c s) (.channel c) none false
      { time := s.now, kind := .channelChanged, channel := some c, condition := entryBearing .strike c s
        line := arcBearing c s, newState := .channel .holdoff, strikeCount := (s.strike c).times.length
        extended := true } := by
  have hline : ∀ x, arcBearing c (s.setChan c x) = arcBearing c s := fun _ => rfl
  have hentry : ∀ x, entryBearing .strike c (s.setChan c x) = entryBearing .strike c s := fun _ => rfl
  simp [Sent, extendHoldoff, sendChannel, sendRecord, channelRecord, h, hline, hentry]

/-- Settles O46: by the timer, and by whether a cause holds the channel. -/
theorem holdoffExpires : Obligations.HoldoffExpires := by
  intro s c p finish hp hst htimer
  refine ⟨exec_holdoffExpiry_early htimer, fun hreached => ?_⟩
  rw [exec_holdoffExpiry_of hst htimer hreached]
  refine ⟨fun hholds => ?held, fun hlines hentries => ?free⟩
  case held =>
    rw [if_pos ((causeHolds_iff c s).mpr hholds)]
    refine ⟨_, arcBearing c s, entryBearing .strike c s, rfl, rfl, fun d hd => ?_, ?_, ?_, ?_, extendHoldoff_sent hst⟩
    · simp [extendHoldoff, sendChannel, sendRecord, hd]
    · simp [extendHoldoff, sendChannel, sendRecord]
    · exact find?_finRange_eq_some (fun l => arcHolds s l c)
    · exact find?_finRange_eq_some (fun i => bearsOn .strike c (s.entry i))
  case free =>
    rw [if_neg (by simp [(causeHolds_eq_false_iff c s).mpr ⟨hlines, hentries⟩])]
    obtain ⟨hframe, hothers, hchan, -, hjudged⟩ := endHoldoff_spec none hp
    exact ⟨_, rfl, hframe, hothers, hchan, hjudged⟩

/-! ## Clearings and closures (R66, R70) -/

theorem exec_arcCleared_of {l : ArcLine} {sent : Nat} {rest : List ScannerDelivery}
    (h : (s.link c).fromScanner = ⟨.arcCleared l, sent⟩ :: rest) :
    exec (.arcCleared c) s = .next (askAgain c (some ⟨.scanner, sent⟩)
      (s.setLink c { s.link c with fromScanner := rest })) := by
  simp [exec, execArcCleared, h]

theorem exec_conditionClearedEvent_of {e : EntryIx} {sent : Nat} {rest : List EvaluatorDelivery}
    (h : (s.link c).fromEvaluator = ⟨.conditionCleared e, sent⟩ :: rest) :
    exec (.conditionClearedEvent c) s = .next (askAgain c (some ⟨.evaluator, sent⟩)
      (s.setLink c { s.link c with fromEvaluator := rest })) := by
  simp [exec, execConditionClearedEvent, h]

theorem exec_interlockClosedEvent_of {sent : Nat} {rest : List ScannerDelivery}
    (h : (s.link c).fromScanner = ⟨.closed, sent⟩ :: rest) :
    exec (.interlockClosedEvent c) s = .next (takeClosed c (some ⟨.scanner, sent⟩)
      (s.setLink c { s.link c with fromScanner := rest })) := by
  simp [exec, execInterlockClosedEvent, h]

/-- R66: a channel whose extended holdoff no cause holds any longer. -/
def mayAskAgain (c : Channel) (s : State) : Prop :=
  (s.chan c).state = .holdoff ∧ (s.chan c).extended = true ∧ (∀ l, arcHolds s l c = false)
    ∧ ∀ i, bearsOn .strike c (s.entry i) = false

theorem askAgain_of (after : Option Stamp) (h : mayAskAgain c s) : askAgain c after s = endHoldoff c after s := by
  obtain ⟨hst, hextended, hcauses⟩ := h
  simp [askAgain, hst, hextended, (causeHolds_eq_false_iff c s).mpr hcauses]

theorem askAgain_of_not (after : Option Stamp) (h : ¬ mayAskAgain c s) : askAgain c after s = s :=
  if_neg fun ⟨hst, hextended, hcauses⟩ => h ⟨hst, hextended, (causeHolds_eq_false_iff c s).mp hcauses⟩

theorem takeClosed_of (after : Option Stamp) (h : (s.chan c).state = .interlocked) :
    takeClosed c after s = verdict c false after s := if_pos h

theorem takeClosed_of_not (after : Option Stamp) (h : (s.chan c).state ≠ .interlocked) :
    takeClosed c after s = s := if_neg h

theorem mayAskAgain_setLink (left : ChannelLinks) : mayAskAgain c (s.setLink c left) ↔ mayAskAgain c s := Iff.rfl

/-- Settles O47: each event is taken off its link, and then ends the holdoff, or brings the channel back, or does
nothing. -/
theorem clearingsAndClosuresAreTaken : Obligations.ClearingsAndClosuresAreTaken := by
  intro s c cmd left after ends extended hcmd
  have hkept : ends = false → exec cmd s = .next (s.setLink c left) := fun hends => by
    rcases hcmd with ⟨l, sent, rest, rfl, hlink, rfl, rfl, rfl, hiff⟩ | ⟨e, sent, rest, rfl, hlink, rfl, rfl, rfl, hiff⟩
      | ⟨sent, rest, rfl, hlink, rfl, rfl, rfl, hiff⟩
    · rw [exec_arcCleared_of hlink, askAgain_of_not _ fun h => by simp [hiff.mpr h] at hends]
    · rw [exec_conditionClearedEvent_of hlink, askAgain_of_not _ fun h => by simp [hiff.mpr h] at hends]
    · rw [exec_interlockClosedEvent_of hlink, takeClosed_of_not _ fun h => by simp [hiff.mpr h] at hends]
  refine ⟨fun hends => ⟨_, hkept hends, rfl, setLink_otherChannels s c left, by simp⟩, fun p hp hends => ?_⟩
  have hp' : ((s.setLink c left).chan c).profile = some p := hp
  have hasks : ∀ after', exec cmd s = .next (endHoldoff c after' (s.setLink c left)) → after = after' →
      mayAskAgain c s → extended = true → ∃ t, exec cmd s = .next t
        ∧ t = { s with mem := t.mem, chans := t.chans, strikes := t.strikes, arbiter := t.arbiter
                       journal := t.journal, links := t.links }
        ∧ OtherChannels c s t ∧ t.link c = left
        ∧ (extended = true →
            t.chan c = { s.chan c with state := (t.chan c).state, holdoff := none, extended := false })
        ∧ (extended = false → t.chan c = { s.chan c with state := (t.chan c).state })
        ∧ Judged s t c p extended after := by
    rintro after' hexec rfl hmay rfl
    obtain ⟨hframe, hothers, hchan, hlink, hjudged⟩ := endHoldoff_spec (s := s.setLink c left) after hp'
    have hext : ((s.setLink c left).chan c).extended = true := hmay.2.1
    rw [hext] at hjudged
    refine ⟨_, hexec, ?_, fun d hd => ?_, by rw [hlink]; simp, fun _ => hchan, fun h => by simp at h,
      ⟨hjudged.asked, hjudged.queued⟩⟩
    · rw [hframe]; rfl
    · simpa [hd] using hothers d hd
  rcases hcmd with ⟨l, sent, rest, rfl, hlink, rfl, rfl, rfl, hiff⟩ | ⟨e, sent, rest, rfl, hlink, rfl, rfl, rfl, hiff⟩
    | ⟨sent, rest, rfl, hlink, rfl, rfl, rfl, hiff⟩
  · exact hasks _ (by rw [exec_arcCleared_of hlink, askAgain_of _ ((mayAskAgain_setLink _).mpr (hiff.mp hends))]) rfl (hiff.mp hends) rfl
  · exact hasks _ (by rw [exec_conditionClearedEvent_of hlink, askAgain_of _ ((mayAskAgain_setLink _).mpr (hiff.mp hends))]) rfl (hiff.mp hends) rfl
  · have hjudged := verdict_judged c false (some ⟨.scanner, sent⟩) _ p hp'
    obtain ⟨hframe, hothers, hchan, -, hlink'⟩ := verdict_frame c false (some ⟨.scanner, sent⟩)
      (s.setLink c { s.link c with fromScanner := rest })
    refine ⟨_, by rw [exec_interlockClosedEvent_of hlink, takeClosed_of _ (by simpa using hiff.mp hends)], ?_, fun d hd => ?_,
      by rw [hlink']; simp, fun h => by simp at h, fun _ => hchan, ⟨hjudged.asked, hjudged.queued⟩⟩
    · rw [hframe]; rfl
    · simpa [hd] using hothers d hd

/-! ## The confirmation timer (R86) -/

theorem exec_confirmationExpiry_early {finish : Time} (h : (s.strike c).timer = some finish)
    (hearly : 2147483648 ≤ (s.now - finish).toNat) : exec (.confirmationExpiry c) s = .next s := by
  simp [exec, execConfirmationExpiry, h, not_reached_of_le hearly]

/-- R86: the record goes to NONE and the channel to LOCKOUT. -/
def expireConfirmation (c : Channel) (s : State) : State :=
  let s := setState c .lockout (endConfirmation c s)
  sendChannel c none (channelRecord c .confirmExpired s) s

theorem exec_confirmationExpiry_of {finish : Time} (hpending : (s.strike c).pending = true)
    (h : (s.strike c).timer = some finish) (hreached : (s.now - finish).toNat < 2147483648) :
    exec (.confirmationExpiry c) s = .next (expireConfirmation c s) := by
  simp [exec, execConfirmationExpiry, h, hpending, reached_of_lt hreached, expireConfirmation]

/-- Settles O48. -/
theorem confirmationExpires : Obligations.ConfirmationExpires := by
  intro s c finish hpending htimer
  refine ⟨fun hreached => ⟨_, exec_confirmationExpiry_of hpending htimer hreached, ?_⟩,
    exec_confirmationExpiry_early htimer⟩
  have hmem := endConfirmation_memoryBut c s
  have hrecord := endConfirmation_state c s hpending
  have h := endConfirmation_eq c s
  rw [if_pos hpending] at h
  unfold expireConfirmation
  refine ⟨?_, ?_⟩
  · rw [h]; rfl
  generalize hm : (endConfirmation c s).mem = m at h hrecord
  have hmem' : ∀ t : State, t.mem = m → MemoryBut (confirmationBytes c) s t := fun t ht a ha => by
    rw [ht, ← hm]
    exact hmem a (fun k => ha k.2)
  rw [h]
  refine ⟨fun d hd => ?_, ?_, ?_, hrecord, ?_, hmem' _ rfl⟩
  · simp [sendChannel, sendRecord, setState, hd]
  · simp [sendChannel, sendRecord, setState]
  · simp [sendChannel, sendRecord, setState]
  · simp [Sent, sendChannel, sendRecord, channelRecord, setState]

end Sys2Proof.Machine


/-! Requests (chapter 9): the visit that takes a request, what its work finds, and what completing it adds. -/

namespace Sys2Proof.Machine

/-! ## What completing a slot leaves alone -/

section
variable (k : SlotIx) (r : Reply) (s : State)

@[simp] theorem completeSlot_now : (completeSlot k r s).now = s.now := by rw [completeSlot_frame]
@[simp] theorem completeSlot_initialized : (completeSlot k r s).initialized = s.initialized := by rw [completeSlot_frame]
@[simp] theorem completeSlot_scanner : (completeSlot k r s).scanner = s.scanner := by rw [completeSlot_frame]
@[simp] theorem completeSlot_monitors : (completeSlot k r s).monitors = s.monitors := by rw [completeSlot_frame]
@[simp] theorem completeSlot_chans : (completeSlot k r s).chans = s.chans := by rw [completeSlot_frame]
@[simp] theorem completeSlot_strikes : (completeSlot k r s).strikes = s.strikes := by rw [completeSlot_frame]
@[simp] theorem completeSlot_resolvers : (completeSlot k r s).resolvers = s.resolvers := by rw [completeSlot_frame]
@[simp] theorem completeSlot_arbiter : (completeSlot k r s).arbiter = s.arbiter := by rw [completeSlot_frame]
@[simp] theorem completeSlot_positions : (completeSlot k r s).positions = s.positions := by rw [completeSlot_frame]
@[simp] theorem completeSlot_captures : (completeSlot k r s).captures = s.captures := by rw [completeSlot_frame]
@[simp] theorem completeSlot_journal : (completeSlot k r s).journal = s.journal := by rw [completeSlot_frame]
@[simp] theorem completeSlot_status : (completeSlot k r s).status = s.status := by rw [completeSlot_frame]
@[simp] theorem completeSlot_irqEnable : (completeSlot k r s).irqEnable = s.irqEnable := by rw [completeSlot_frame]
@[simp] theorem completeSlot_links : (completeSlot k r s).links = s.links := by rw [completeSlot_frame]
@[simp] theorem completeSlot_trips : (completeSlot k r s).trips = s.trips := by rw [completeSlot_frame]
@[simp] theorem completeSlot_pending : (completeSlot k r s).pending = s.pending := by rw [completeSlot_frame]

@[simp] theorem completeSlot_chan (x : Channel) : (completeSlot k r s).chan x = s.chan x := by
  rw [State.chan, completeSlot_chans]; rfl

@[simp] theorem completeSlot_strike (x : Channel) : (completeSlot k r s).strike x = s.strike x := by
  rw [State.strike, completeSlot_strikes]; rfl

@[simp] theorem completeSlot_resolver (x : Channel) : (completeSlot k r s).resolver x = s.resolver x := by
  rw [State.resolver, completeSlot_resolvers]; rfl

@[simp] theorem completeSlot_monitor (x : Channel) : (completeSlot k r s).monitor x = s.monitor x := by
  rw [State.monitor, completeSlot_monitors]; rfl

@[simp] theorem completeSlot_link (x : Channel) : (completeSlot k r s).link x = s.link x := by
  rw [State.link, completeSlot_links]; rfl

@[simp] theorem completeSlot_position (x : PositionIx) : (completeSlot k r s).position x = s.position x := by
  rw [State.position, completeSlot_positions]; rfl

@[simp] theorem completeSlot_entry (x : EntryIx) : (completeSlot k r s).entry x = s.entry x := by
  rw [State.entry, completeSlot_evaluator]; rfl

@[simp] theorem completeSlot_buffer (x : BufferIx) : (completeSlot k r s).buffer x = s.buffer x := by
  rw [State.buffer, completeSlot_captures]; rfl

end

variable {s t u : State} {k : SlotIx} {n kind w1 w2 w3 : Nat} {kind' : RequestKind} {reply : Reply}
  {work : Arguments → State → State × Reply} {W : Nat → Prop}

/-! ## The visit -/

theorem Offered.arguments (h : Offered s k n kind w1 w2 w3) : argumentsOf s.mem k = ⟨w1, w2, w3⟩ := by
  simp [argumentsOf, h.word1, h.word2, h.word3]

/-- R152, R155: the visit that takes the request runs its work, and completes the slot. -/
theorem Offered.visitFor_eq (h : Offered s k n kind w1 w2 w3) (hkind : kindOf kind = some kind')
    (hwork : work ⟨w1, w2, w3⟩ (writeSlotState k 2 s) = (u, reply)) :
    visitFor kind' work s = completeSlot k reply u := by
  rw [visitFor, ← hkind, offered_of h]
  simp [serve, h.arguments, hwork]

theorem Offered.answered (h : Offered s k n kind w1 w2 w3) (hu : u.handler = s.handler)
    (h1 : reply.detail1 < 65536) (h2 : reply.detail2 < 65536) : Answered s (completeSlot k reply u) k n reply := by
  obtain ⟨hdone, hcode, hdetail1, hdetail2⟩ := completeSlot_words k reply u h1 h2
  exact ⟨hdone, hcode, hdetail1, hdetail2, by rw [completeSlot_handler k reply u n (hu ▸ h.sweeping), hu]⟩

theorem writeSlotState_memoryBut (k : SlotIx) (value : Nat) (s : State) :
    MemoryBut (fun a => slotAddress k ≤ a ∧ a < slotAddress k + 2) s (writeSlotState k value s) :=
  (write_memoryBut s (slotAddress k) (numBytes 2 value)).mono fun a h => by simpa using h

/-- The bytes that a request writes: those of its slot, and those that its work writes. -/
theorem completeSlot_written (hu : MemoryBut W (writeSlotState k 2 s) u) :
    MemoryBut (fun a => slotBytes k a ∨ W a) s (completeSlot k reply u) :=
  (((writeSlotState_memoryBut k 2 s).mono fun _ h => .inl (.inl h)).trans (hu.mono fun _ h => .inr h)).trans
    ((completeSlot_memoryBut k reply u).mono fun _ h => .inl h)

theorem completeSlot_written_slot (hu : u.mem = (writeSlotState k 2 s).mem) :
    MemoryBut (slotBytes k) s (completeSlot k reply u) :=
  (completeSlot_written (W := fun _ => False) (.of_mem hu)).mono fun _ h => h.resolve_right id

/-- Outside the slots, completing a request leaves what its work has written. -/
theorem completeSlot_readNum (a size : Nat) (h : a + size ≤ Config.slotBase ∨ 0x0500 ≤ a) :
    readNum (completeSlot k reply u).mem a size = readNum u.mem a size :=
  (completeSlot_memoryBut k reply u).readNum a size fun i hi hslot => by
    have hk := k.isLt
    simp only [slotBytes, slotAddress, Config.slotBase] at hslot h
    omega

/-- R153: a request that is refused changes its slot and the handler only. -/
theorem Offered.refused (h : Offered s k n kind w1 w2 w3) (hkind : kindOf kind = some kind') {code : ResultCode}
    {d1 d2 : Nat} (h1 : d1 < 65536) (h2 : d2 < 65536)
    (hwork : work ⟨w1, w2, w3⟩ (writeSlotState k 2 s) = (writeSlotState k 2 s, ⟨code, d1, d2⟩)) :
    ∃ t, Host.Outcome.next (visitFor kind' work s) = (.next t : Host.Outcome State Fault Refusal)
      ∧ Answered s t k n ⟨code, d1, d2⟩
      ∧ t = { s with mem := t.mem, handler := t.handler } ∧ MemoryBut (slotBytes k) s t :=
  ⟨_, congrArg _ (h.visitFor_eq hkind hwork), h.answered rfl h1 h2, by rw [completeSlot_frame]; rfl,
    completeSlot_written_slot rfl⟩

theorem Offered.refusal (h : Offered s k n kind w1 w2 w3) (hkind : kindOf kind = some kind') {code : ResultCode}
    (hwork : work ⟨w1, w2, w3⟩ (writeSlotState k 2 s) = (writeSlotState k 2 s, ⟨code, 0, 0⟩)) :
    ∃ t, Host.Outcome.next (visitFor kind' work s) = (.next t : Host.Outcome State Fault Refusal)
      ∧ Answered s t k n ⟨code, 0, 0⟩ := by
  obtain ⟨t, ht, hanswered, -⟩ := h.refused hkind (by decide) (by decide) hwork
  exact ⟨t, ht, hanswered⟩

/-! ## Arguments -/

@[simp] theorem index_val {n : Nat} (i : Fin n) : index n i.val = some i := by simp [index]

theorem index_of_le {n w : Nat} (h : n ≤ w) : index n w = none := by simp [index, Nat.not_lt.mpr h]

end Sys2Proof.Machine


/-! The requests that bring a channel on air, take it off, set its target, answer its confirmation or release its
lockout (R53, R54, R71, R72, R83 to R85, R90, R114). -/

namespace Sys2Proof.Machine

variable {s : State} {c : Channel} {a : Arguments}

/-! ## CHANNEL_ON -/

theorem channelOn_of_badArgument (h : 4 ≤ a.word1 ∨ 1000 < a.word2) : channelOn a s = (s, ⟨.badArgument, 0, 0⟩) := by
  unfold channelOn
  rcases h with h | h
  · rw [index_of_le h]
  · cases index 4 a.word1 <;> simp [h]

theorem channelOn_of_refusal (hc : a.word1 = c.val) (ht : a.word2 ≤ 1000) {code : ResultCode}
    (h : channelOnRefusal c s = some code) : channelOn a s = (s, ⟨code, 0, 0⟩) := by
  simp [channelOn, hc, Nat.not_lt.mpr ht, h]

theorem channelOn_of_accepted (hc : a.word1 = c.val) (ht : a.word2 ≤ 1000) (h : channelOnRefusal c s = none) :
    channelOn a s = (takeOn c a.word2 s, ⟨.ok, 0, 0⟩) := by
  simp [channelOn, hc, Nat.not_lt.mpr ht, h]

/-- R53: the condition that holds a channel off. -/
theorem bearing_isSome_or_iff (c : Channel) (s : State) :
    ((entryBearing .strike c s).isSome = true ∨ (entryBearing .lockout c s).isSome = true)
      ↔ ∃ i, bearsOn .strike c (s.entry i) = true ∨ bearsOn .lockout c (s.entry i) = true := by
  rw [entryBearing_isSome, entryBearing_isSome, exists_or]

/-- Settles O22: the checks in their order. -/
theorem channelOnIsChecked : Obligations.ChannelOnIsChecked := by
  intro s k n w1 w2 w3 h
  have hrefused : ∀ {c : Channel} {code : ResultCode}, w1 = c.val → w2 ≤ 1000 →
      channelOnRefusal c s = some code → ∃ t, exec .channelOn s = .next t ∧ Answered s t k n ⟨code, 0, 0⟩ :=
    fun hc ht hcode => h.refusal rfl (channelOn_of_refusal (a := ⟨w1, w2, w3⟩) hc ht hcode)
  refine ⟨fun hbad => h.refusal rfl (channelOn_of_badArgument hbad), fun c hc ht => ⟨fun hconf => ?notConfigured,
    fun hconf hp => ?noProfile, fun hconf hp hst => ?wrongState, fun hconf hp hst hlock => ?interlocked,
    fun hconf hp hst hlock hbears => ?stillActive⟩⟩
  case notConfigured => exact hrefused hc ht (by simp [channelOnRefusal, hconf])
  case noProfile => exact hrefused hc ht (by simp [channelOnRefusal, hconf, hp])
  case wrongState => exact hrefused hc ht (by simp [channelOnRefusal, hconf, hp, hst])
  case interlocked => exact hrefused hc ht (by simp [channelOnRefusal, hconf, hp, hst, hlock])
  case stillActive =>
    refine hrefused hc ht ?_
    rw [← bearing_isSome_or_iff] at hbears
    simp [channelOnRefusal, hconf, hp, hst, hlock, hbears]

/-- R54, R94, R97: what an accepted CHANNEL_ON changes. -/
theorem takeOn_eq (target : Nat) {p : Profile} (hp : (s.chan c).profile = some p) :
    takeOn c target s = { s with
      chans := put s.chans c { s.chan c with state := .queued }
      resolvers := put s.resolvers c { s.resolver c with target := some target }
      arbiter := { s.arbiter with
        high := tailIf (decide (p.group ≠ 1)) c s.arbiter.high
        low := tailIf (decide (p.group = 1)) c s.arbiter.low
        engine := grantFrom s.arbiter.engine (tailIf (decide (p.group ≠ 1)) c s.arbiter.high)
          (tailIf (decide (p.group = 1)) c s.arbiter.low) }
      journal := { s.journal with
        waiting := s.journal.waiting ++ [⟨s.journal.sent, .channel c, none,
          { time := s.now, kind := .channelChanged, channel := some c, newState := .channel .queued
            strikeCount := (s.strike c).times.length }, false⟩]
        sent := s.journal.sent + 1 } } := by
  simp only [takeOn, joinTail_eq, offerGrant_eq]
  apply State.same <;> simp [recordChange, sendChannel, sendRecord, channelRecord, setState, profileOf, hp]

/-- Settles O21: by the closed form of an accepted request. -/
theorem channelOnQueuesTheChannel : Obligations.ChannelOnQueuesTheChannel := by
  intro s k n w3 target c p h htarget hconf hp hst hlock hbears
  have hnone : channelOnRefusal c (writeSlotState k 2 s) = none := by
    have hfree : ¬ ∃ i, bearsOn .strike c (s.entry i) = true ∨ bearsOn .lockout c (s.entry i) = true := by
      simp [hbears]
    rw [← bearing_isSome_or_iff] at hfree
    show channelOnRefusal c s = none
    simp [channelOnRefusal, hconf, hp, hst, hlock, hfree]
  have hwork := channelOn_of_accepted (a := ⟨c.val, target, w3⟩) rfl htarget hnone
  rw [takeOn_eq target (s := writeSlotState k 2 s) (p := p) hp] at hwork
  refine ⟨_, congrArg Host.Outcome.next (h.visitFor_eq rfl hwork), h.answered rfl (by simp) (by simp), ?frame, ?chan, ?resolver, ?high,
    ?low, ?engine, ?steps, ?lastStep, ?sent', ?sent, fun d hd => ?others, completeSlot_written_slot rfl⟩
  case frame => rw [completeSlot_frame]; rfl
  case chan => rw [completeSlot_chan]; exact look_put_same _ _ _
  case resolver => rw [completeSlot_resolver]; exact look_put_same _ _ _
  case high => rw [completeSlot_arbiter]; rfl
  case low => rw [completeSlot_arbiter]; rfl
  case engine => rw [completeSlot_arbiter]; rfl
  case steps => rw [completeSlot_arbiter]; rfl
  case lastStep => rw [completeSlot_arbiter]; rfl
  case sent' => rw [completeSlot_arbiter]; rfl
  case sent => rw [Sent, completeSlot_journal]; rfl
  case others =>
    simp [State.chan, State.strike, State.resolver, State.monitor, State.link, writeSlotState, State.write,
      State.setMem, hd]

/-! ## CHANNEL_OFF -/

theorem channelOff_of_badArgument (h : 4 ≤ a.word1) : channelOff a s = (s, ⟨.badArgument, 0, 0⟩) := by
  simp [channelOff, index_of_le h]

theorem channelOff_of_off (hc : a.word1 = c.val) (h : (s.chan c).state = .off) : channelOff a s = (s, ⟨.ok, 0, 0⟩) := by
  simp [channelOff, hc, h]

theorem channelOff_of_lockout (hc : a.word1 = c.val) (h : (s.chan c).state = .lockout) :
    channelOff a s = (s, ⟨.wrongState, 0, 0⟩) := by
  simp [channelOff, hc, h]

theorem channelOff_of_in (hc : a.word1 = c.val) (hoff : (s.chan c).state ≠ .off) (hlock : (s.chan c).state ≠ .lockout) :
    channelOff a s = (takeOff c s, ⟨.ok, 0, 0⟩) := by
  simp only [channelOff, hc, index_val]
  cases hst : (s.chan c).state <;> simp_all

/-- R71, R72: what CHANNEL_OFF changes. -/
theorem takeOff_eq (c : Channel) (s : State) :
    takeOff c s = { s with
      mem := (depart c s).mem
      chans := put s.chans c { s.chan c with state := .off, mute := true, holdoff := none, extended := false }
      strikes := put s.strikes c { s.strike c with
        times := [], pending := false, timer := if (s.strike c).pending = true then none else (s.strike c).timer }
      resolvers := put s.resolvers c { s.resolver c with drive := 0, ramp := none, foldback := none, floorMarks := 0 }
      arbiter := { s.arbiter with
        high := without c s.arbiter.high, low := without c s.arbiter.low
        engine := grantFrom (releasedBy c s.arbiter.engine) (without c s.arbiter.high) (without c s.arbiter.low) }
      journal := { s.journal with
        waiting := s.journal.waiting ++ [⟨s.journal.sent, .channel c, none,
          { time := s.now, kind := .channelChanged, channel := some c, newState := .channel .off
            withdrawn := (s.strike c).pending }, false⟩]
        sent := s.journal.sent + 1 } } := by
  have h := depart_eq c s
  unfold takeOff
  generalize (depart c s).mem = m at h ⊢
  simp only [h, offerGrant_eq]
  apply State.same <;> simp [sendChannel, sendRecord, channelRecord, enterOff, stopHoldoff, setState]

/-- Settles O23: by the channel's state. -/
theorem channelOffIsTaken : Obligations.ChannelOffIsTaken := by
  intro s k n w1 w2 w3 h
  refine ⟨fun hbad => h.refusal rfl (channelOff_of_badArgument hbad), fun c hc => ⟨fun hst => ?off, fun hst => ?lockout,
    fun hoff hlock => ?elsewhere⟩⟩
  case off => exact h.refused rfl (by simp) (by simp) (channelOff_of_off (a := ⟨w1, w2, w3⟩) hc hst)
  case lockout => exact h.refusal rfl (channelOff_of_lockout (a := ⟨w1, w2, w3⟩) hc hst)
  case elsewhere =>
    have hwork := channelOff_of_in (a := ⟨w1, w2, w3⟩) (s := writeSlotState k 2 s) hc hoff hlock
    have hmem := depart_memoryBut c (writeSlotState k 2 s)
    have hrecord := depart_state c (writeSlotState k 2 s)
    rw [takeOff_eq] at hwork
    refine ⟨_, congrArg Host.Outcome.next (h.visitFor_eq rfl hwork), h.answered rfl (by simp) (by simp), ?frame, ?chan, ?strike,
      ?resolver, ?high, ?low, ?engine, ?sent, fun hpending => ?record, fun d hd => ?others, completeSlot_written hmem⟩
    case frame => rw [completeSlot_frame]; rfl
    case chan => rw [completeSlot_chan]; exact look_put_same _ _ _
    case strike => rw [completeSlot_strike]; exact look_put_same _ _ _
    case resolver => rw [completeSlot_resolver]; exact look_put_same _ _ _
    case high => rw [completeSlot_arbiter]; rfl
    case low => rw [completeSlot_arbiter]; rfl
    case engine => rw [completeSlot_arbiter]; rfl
    case sent => rw [Sent, completeSlot_journal]; rfl
    case record =>
      rw [completeSlot_readNum _ _ (.inl (by simp only [Config.confirmationBase, Config.slotBase]; omega))]
      exact hrecord hpending
    case others =>
      simp [State.chan, State.strike, State.resolver, State.monitor, State.link, writeSlotState, State.write,
        State.setMem, hd]

/-! ## SET_TARGET -/

theorem setTarget_of_badArgument (h : 4 ≤ a.word1 ∨ 1000 < a.word2) : setTarget a s = (s, ⟨.badArgument, 0, 0⟩) := by
  unfold setTarget
  rcases h with h | h
  · rw [index_of_le h]
  · cases index 4 a.word1 <;> simp [h]

theorem setTarget_of_noProfile (hc : a.word1 = c.val) (ht : a.word2 ≤ 1000) (h : (s.chan c).profile = none) :
    setTarget a s = (s, ⟨.noProfile, 0, 0⟩) := by
  simp [setTarget, hc, Nat.not_lt.mpr ht, h]

theorem setTarget_of_profile (hc : a.word1 = c.val) (ht : a.word2 ≤ 1000) (h : (s.chan c).profile ≠ none) :
    setTarget a s = (changeEntry c { s.resolver c with target := some a.word2 } s, ⟨.ok, 0, 0⟩) := by
  simp [setTarget, hc, Nat.not_lt.mpr ht, h]

/-- R102, R112: what a change of an entry other than RAMP changes, all told. -/
theorem changeEntry_eq_set {r : DriveResolver} (h : r ≠ s.resolver c) :
    changeEntry c r s = { s with
      resolvers := put s.resolvers c { r with
        drive := if (s.chan c).mute = false then min r.drive r.resolved else r.drive }
      links := put s.links c { s.link c with completions := (s.link c).completions +
        (if s.arbiter.engine = .held c ∧ r.rampComplete = true then 1 else 0) } } := by
  rw [changeEntry_eq c r s h, completionTest_eq]
  apply State.same <;> simp [DriveResolver.rampComplete]

/-- Settles O24: the target set to the value it has changes no entry; another value is a change of an entry. -/
theorem setTargetIsTaken : Obligations.SetTargetIsTaken := by
  intro s k n w1 w2 w3 h
  refine ⟨fun hbad => h.refusal rfl (setTarget_of_badArgument hbad), fun c hc ht => ⟨fun hp => ?noProfile,
    fun hp hsame => ?same, fun hp hnew => ?changed⟩⟩
  case noProfile => exact h.refusal rfl (setTarget_of_noProfile (a := ⟨w1, w2, w3⟩) hc ht hp)
  case same =>
    have hwork := setTarget_of_profile (a := ⟨w1, w2, w3⟩) (s := writeSlotState k 2 s) hc ht hp
    have hunchanged : { s.resolver c with target := some w2 } = (writeSlotState k 2 s).resolver c := by
      rw [← hsame]; rfl
    simp only [writeSlotState, State.write_resolver] at hwork hunchanged
    rw [hunchanged, ← State.write_resolver s (slotAddress k) (numBytes 2 2), changeEntry_same] at hwork
    exact h.refused rfl (by simp) (by simp) hwork
  case changed =>
    have hwork := setTarget_of_profile (a := ⟨w1, w2, w3⟩) (s := writeSlotState k 2 s) hc ht hp
    have hdiff : { (writeSlotState k 2 s).resolver c with target := some w2 } ≠ (writeSlotState k 2 s).resolver c :=
      fun e => hnew (congrArg DriveResolver.target e).symm
    rw [changeEntry_eq_set hdiff] at hwork
    refine ⟨_, congrArg Host.Outcome.next (h.visitFor_eq rfl hwork), h.answered rfl (by simp) (by simp), ?frame, ?resolver, ?drive,
      ?link, fun d hd => ?others, completeSlot_written_slot rfl⟩
    case frame => rw [completeSlot_frame]; rfl
    case resolver => simp [State.resolver, writeSlotState, State.write, State.setMem]
    case drive =>
      cases hm : (s.chan c).mute <;>
        simp_all [State.resolver, writeSlotState, State.write, State.setMem, State.chan, DriveResolver.resolved,
          DriveResolver.levels]
    case link =>
      simp [State.resolver, State.link, writeSlotState, State.write, State.setMem, DriveResolver.rampComplete]
    case others =>
      simp [State.chan, State.strike, State.resolver, State.monitor, State.link, writeSlotState, State.write,
        State.setMem, hd]

/-! ## CONFIRM_RESTRIKE -/

theorem confirmRestrike_of_badArgument (h : 4 ≤ a.word1 ∨ 1 < a.word3) :
    confirmRestrike a s = (s, ⟨.badArgument, 0, 0⟩) := by
  unfold confirmRestrike
  rcases h with h | h
  · rw [index_of_le h]
  · cases index 4 a.word1 <;> simp [h]

theorem confirmRestrike_of_late (hc : a.word1 = c.val) (h3 : a.word3 ≤ 1)
    (h : ¬((s.strike c).pending = true ∧ (s.strike c).number.toNat = a.word2)) :
    confirmRestrike a s = (s, ⟨.late, 0, 0⟩) := by
  simp [confirmRestrike, hc, Nat.not_lt.mpr h3, h]

theorem confirmRestrike_of_match (hc : a.word1 = c.val) (h3 : a.word3 ≤ 1) (hpending : (s.strike c).pending = true)
    (hnumber : (s.strike c).number.toNat = a.word2) :
    confirmRestrike a s = (if a.word3 = 0 then acceptAnswer c s else declineAnswer c s, ⟨.ok, 0, 0⟩) := by
  simp [confirmRestrike, hc, Nat.not_lt.mpr h3, hpending, hnumber]

/-- R84, R85: what a matching answer changes; ACCEPT queues the channel. -/
theorem answer_eq (accept : Bool) (hpending : (s.strike c).pending = true) :
    (if accept then acceptAnswer c s else declineAnswer c s) = { s with
      mem := (endConfirmation c s).mem
      chans := put s.chans c { s.chan c with state := if accept then .queued else .lockout }
      strikes := put s.strikes c { s.strike c with pending := false, timer := none }
      arbiter := if accept then { s.arbiter with
          high := tailIf (decide ((profileOf s c).group ≠ 1)) c s.arbiter.high
          low := tailIf (decide ((profileOf s c).group = 1)) c s.arbiter.low
          engine := grantFrom s.arbiter.engine (tailIf (decide ((profileOf s c).group ≠ 1)) c s.arbiter.high)
            (tailIf (decide ((profileOf s c).group = 1)) c s.arbiter.low) }
        else s.arbiter
      journal := { s.journal with
        waiting := s.journal.waiting ++ [⟨s.journal.sent, .channel c, none,
          { time := s.now, kind := .confirmAnswered, channel := some c
            newState := .channel (if accept then .queued else .lockout)
            strikeCount := (s.strike c).times.length }, false⟩]
        sent := s.journal.sent + 1 } } := by
  have h := endConfirmation_eq c s
  rw [if_pos hpending] at h
  unfold acceptAnswer declineAnswer
  generalize (endConfirmation c s).mem = m at h ⊢
  simp only [h, offerGrant_eq, joinTail_eq]
  cases accept
  · apply State.same <;> simp [sendChannel, sendRecord, channelRecord, setState]
  · apply State.same <;> simp [sendChannel, sendRecord, channelRecord, setState, profileOf]
    by_cases hlow : ((s.chan c).profile.getD Profile.blank).group = 1 <;> simp [hlow]

/-- Settles O25: LATE, or the answer taken. -/
theorem confirmRestrikeIsTaken : Obligations.ConfirmRestrikeIsTaken := by
  intro s k n w1 w2 w3 h
  refine ⟨fun hbad => h.refusal rfl (confirmRestrike_of_badArgument hbad), fun c hc h3 => ⟨fun hlate => ?late,
    fun hpending hnumber => ?taken⟩⟩
  case late => exact h.refusal rfl (confirmRestrike_of_late (a := ⟨w1, w2, w3⟩) hc h3 hlate)
  case taken =>
    have hwork := confirmRestrike_of_match (a := ⟨w1, w2, w3⟩) (s := writeSlotState k 2 s) hc h3 hpending hnumber
    have hmem := (endConfirmation_memoryBut c (writeSlotState k 2 s)).mono (v := confirmationBytes c) fun _ hb => hb.2
    have hrecord := endConfirmation_state c (writeSlotState k 2 s) hpending
    have hanswer := answer_eq (s := writeSlotState k 2 s) (decide (w3 = 0)) hpending
    simp only [decide_eq_true_eq] at hanswer
    rw [hanswer] at hwork
    refine ⟨_, congrArg Host.Outcome.next (h.visitFor_eq rfl hwork), h.answered rfl (by simp) (by simp), ?frame, ?chan, ?strike,
      ?record, fun hdecline => ?declined, fun p haccept hp => ?accepted, ?sent, fun d hd => ?others,
      completeSlot_written hmem⟩
    case frame => rw [completeSlot_frame]; rfl
    case chan => rw [completeSlot_chan]; exact look_put_same _ _ _
    case strike => rw [completeSlot_strike]; exact look_put_same _ _ _
    case record =>
      rw [completeSlot_readNum _ _ (.inl (by simp only [Config.confirmationBase, Config.slotBase]; omega))]
      exact hrecord
    case declined => rw [completeSlot_arbiter]; simp [hdecline, writeSlotState]
    case accepted =>
      have hprofile : profileOf (writeSlotState k 2 s) c = p := profileOf_of_some hp
      rw [completeSlot_arbiter]
      simp only [haccept, if_true, hprofile]
      exact ⟨rfl, rfl, rfl⟩
    case sent => rw [Sent, completeSlot_journal]; rfl
    case others =>
      simp [State.chan, State.strike, State.resolver, State.monitor, State.link, writeSlotState, State.write,
        State.setMem, hd]

/-! ## RELEASE_LOCKOUT -/

theorem releaseLockout_of_badArgument (h : 4 ≤ a.word1) : releaseLockout a s = (s, ⟨.badArgument, 0, 0⟩) := by
  simp [releaseLockout, index_of_le h]

theorem releaseLockout_of_elsewhere (hc : a.word1 = c.val) (h : (s.chan c).state ≠ .lockout) :
    releaseLockout a s = (s, ⟨.wrongState, 0, 0⟩) := by
  simp [releaseLockout, hc, h]

theorem releaseLockout_of_bearing (hc : a.word1 = c.val) (h : (s.chan c).state = .lockout)
    (hbears : ∃ i, bearsOn .lockout c (s.entry i) = true) : releaseLockout a s = (s, ⟨.stillActive, 0, 0⟩) := by
  rw [← entryBearing_isSome] at hbears
  simp [releaseLockout, hc, h, hbears]

theorem releaseLockout_of_free (hc : a.word1 = c.val) (h : (s.chan c).state = .lockout)
    (hbears : ∀ i, bearsOn .lockout c (s.entry i) = false) :
    releaseLockout a s = (recordChange c none (enterOff c s), ⟨.ok, 0, 0⟩) := by
  have hnone : ¬ (entryBearing .lockout c s).isSome = true := by
    rw [entryBearing_isSome]
    simp [hbears]
  simp [releaseLockout, hc, h, hnone]

/-- R72, R90: what the release of a lockout changes. -/
theorem recordChange_enterOff_eq (c : Channel) (s : State) :
    recordChange c none (enterOff c s) = { s with
      chans := put s.chans c { s.chan c with state := .off, holdoff := none, extended := false }
      strikes := put s.strikes c { s.strike c with times := [] }
      resolvers := put s.resolvers c { s.resolver c with ramp := none, foldback := none, floorMarks := 0 }
      journal := { s.journal with
        waiting := s.journal.waiting ++ [⟨s.journal.sent, .channel c, none,
          { time := s.now, kind := .channelChanged, channel := some c, newState := .channel .off }, false⟩]
        sent := s.journal.sent + 1 } } := by
  apply State.same <;>
    simp [recordChange, sendChannel, sendRecord, channelRecord, enterOff, stopHoldoff, setState]

/-- Settles O26: by the channel's state and the lockout conditions in force. -/
theorem releaseLockoutIsTaken : Obligations.ReleaseLockoutIsTaken := by
  intro s k n w1 w2 w3 h
  refine ⟨fun hbad => h.refusal rfl (releaseLockout_of_badArgument hbad), fun c hc => ⟨fun hst => ?elsewhere,
    fun hst hbears => ?bearing, fun hst hbears => ?free⟩⟩
  case elsewhere => exact h.refusal rfl (releaseLockout_of_elsewhere (a := ⟨w1, w2, w3⟩) hc hst)
  case bearing => exact h.refusal rfl (releaseLockout_of_bearing (a := ⟨w1, w2, w3⟩) hc hst hbears)
  case free =>
    have hwork := releaseLockout_of_free (a := ⟨w1, w2, w3⟩) (s := writeSlotState k 2 s) hc hst hbears
    rw [recordChange_enterOff_eq] at hwork
    refine ⟨_, congrArg Host.Outcome.next (h.visitFor_eq rfl hwork), h.answered rfl (by simp) (by simp), ?frame, ?chan, ?strike,
      ?resolver, ?sent, fun d hd => ?others, completeSlot_written_slot rfl⟩
    case frame => rw [completeSlot_frame]; rfl
    case chan => rw [completeSlot_chan]; exact look_put_same _ _ _
    case strike => rw [completeSlot_strike]; exact look_put_same _ _ _
    case resolver => rw [completeSlot_resolver]; exact look_put_same _ _ _
    case sent => rw [Sent, completeSlot_journal]; rfl
    case others =>
      simp [State.chan, State.strike, State.resolver, State.monitor, State.link, writeSlotState, State.write,
        State.setMem, hd]

end Sys2Proof.Machine


/-! The Drive Resolver (chapter 6): the deliveries that it takes, and its work at a frame mark. -/

namespace Sys2Proof.Machine

variable {s : State} {c : Channel}

@[simp] theorem profileOf_setArbiter (s : State) (x : Arbiter) (c : Channel) :
    profileOf (s.setArbiter x) c = profileOf s c := rfl

@[simp] theorem profileOf_setResolver (s : State) (d : Channel) (x : DriveResolver) (c : Channel) :
    profileOf (s.setResolver d x) c = profileOf s c := rfl

@[simp] theorem profileOf_setLink (s : State) (d : Channel) (x : ChannelLinks) (c : Channel) :
    profileOf (s.setLink d x) c = profileOf s c := rfl

/-! ## Counts, joins and leaves (R115, R116) -/

theorem exec_positionCount_of_none (h : (s.link c).counts = []) : exec (.positionCount c) s = .next s := by
  simp [exec, execPositionCount, h]

theorem exec_positionCount_of_noProfile {n : Nat} {rest : List Nat} (h : (s.link c).counts = n :: rest)
    (hp : (s.chan c).profile = none) :
    exec (.positionCount c) s = .next (s.setLink c { s.link c with counts := rest }) := by
  simp [exec, execPositionCount, h, hp]

theorem exec_positionCount_of_profile {n : Nat} {rest : List Nat} {p : Profile} (h : (s.link c).counts = n :: rest)
    (hp : (s.chan c).profile = some p) :
    exec (.positionCount c) s = .next (changeEntry c { s.resolver c with positions := some (ceilingFor p n) }
      (s.setLink c { s.link c with counts := rest })) := by
  simp [exec, execPositionCount, h, hp]

theorem exec_foldbackJoin_of {e : EntryIx} {rest : List FoldbackDelivery} (h : (s.link c).foldback = .join e :: rest) :
    exec (.foldbackJoin c) s = .next ((s.setLink c { s.link c with foldback := rest }).setResolver c
      { s.resolver c with activeSet := if (s.resolver c).activeSet.contains e then (s.resolver c).activeSet
          else (s.resolver c).activeSet ++ [e] }) := by
  simp [exec, execFoldbackJoin, h]

theorem exec_foldbackLeave_of {e : EntryIx} {rest : List FoldbackDelivery} (h : (s.link c).foldback = .leave e :: rest) :
    exec (.foldbackLeave c) s = .next ((s.setLink c { s.link c with foldback := rest }).setResolver c
      { s.resolver c with activeSet := (s.resolver c).activeSet.filter (fun d => d != e) }) := by
  simp [exec, execFoldbackLeave, h]

theorem exec_foldbackJoin_of_not (h : ∀ e, (s.link c).foldback.head? ≠ some (.join e)) :
    exec (.foldbackJoin c) s = .next s := by
  show execFoldbackJoin c s = _
  unfold execFoldbackJoin
  split
  · rename_i e rest hl
    exact absurd (by rw [hl]; rfl) (h e)
  all_goals rfl

theorem exec_foldbackLeave_of_not (h : ∀ e, (s.link c).foldback.head? ≠ some (.leave e)) :
    exec (.foldbackLeave c) s = .next s := by
  show execFoldbackLeave c s = _
  unfold execFoldbackLeave
  split
  · rename_i e rest hl
    exact absurd (by rw [hl]; rfl) (h e)
  all_goals rfl

/-- Settles O40: by the delivery that is next. -/
theorem driveResolverTakesDeliveries : Obligations.DriveResolverTakesDeliveries := by
  intro s c
  refine ⟨fun n rest p h hp => ?count, fun e rest h => ?join, fun e rest h => ?leave, exec_positionCount_of_none,
    fun n rest h hp => ?noProfile, exec_foldbackJoin_of_not, exec_foldbackLeave_of_not⟩
  case count =>
    refine ⟨_, exec_positionCount_of_profile h hp, ?_⟩
    by_cases hsame : (s.resolver c).positions = some (ceilingFor p n)
    · have hunchanged : { s.resolver c with positions := some (ceilingFor p n) }
          = (s.setLink c { s.link c with counts := rest }).resolver c := by rw [← hsame]; rfl
      rw [hunchanged, changeEntry_same]
      exact ⟨rfl, setLink_otherChannels _ _ _, by rw [← hsame]; rfl, fun hne => absurd hsame hne, fun _ => rfl,
        by simp [hsame]⟩
    · have hdiff : { s.resolver c with positions := some (ceilingFor p n) }
          ≠ (s.setLink c { s.link c with counts := rest }).resolver c :=
        fun e => hsame (congrArg DriveResolver.positions e).symm
      rw [changeEntry_eq_set hdiff]
      refine ⟨rfl, fun d hd => ?_, ?_, fun _ hmute => ?_, fun hmute => ?_, ?_⟩
      · simp [State.chan, State.strike, State.resolver, State.monitor, State.link, State.setLink, hd]
      · simp [State.resolver]
      · simp [State.resolver, hmute, DriveResolver.resolved, DriveResolver.levels]
      · simp [State.resolver, hmute.resolve_left hsame]
      · have hsame' : (look s.resolvers c).positions ≠ some (ceilingFor p n) := hsame
        simp [State.resolver, State.link, State.setLink, hsame', DriveResolver.rampComplete]
  case join =>
    refine ⟨_, exec_foldbackJoin_of h, rfl, fun d hd => by simp [hd], by simp, by simp, fun hnodup => ?_, fun d => ?_⟩
    · by_cases he : e ∈ (s.resolver c).activeSet
      · simpa [he] using hnodup
      · simpa [he, List.nodup_append] using ⟨hnodup, fun a ha hae => he (hae ▸ ha)⟩
    · by_cases he : e ∈ (s.resolver c).activeSet
      · simpa [he] using fun hd => hd ▸ he
      · simp [he, or_comm]
  case leave =>
    refine ⟨_, exec_foldbackLeave_of h, rfl, fun d hd => by simp [hd], by simp, by simp, fun hnodup => ?_, fun d => ?_⟩
    · simpa using hnodup.filter _
    · simp [and_comm]
  case noProfile =>
    exact ⟨_, exec_positionCount_of_noProfile h hp, rfl, setLink_otherChannels _ _ _, by simp⟩

/-! ## The work of a mark (R121) -/

/-- R100, R101: the limit set after the ramp step, if one is due. -/
def rampedBy (p : Profile) (due : Bool) (r : DriveResolver) : DriveResolver :=
  { r with ramp := if due then r.ramp.map (fun level => min 1000 (level + p.rampStep)) else r.ramp }

/-- R118: the foldback step finds the entry at the floor for the last time before the escalation. -/
def escalates (p : Profile) (st : ChannelState) (r : DriveResolver) : Bool :=
  decide (st ≠ .off) && !r.activeSet.isEmpty && decide (r.foldback = some p.foldbackFloor) && decide (p.escalation ≠ 0)
    && decide (r.floorMarks + 1 = p.escalation)

/-- R117 to R119: the limit set after the Foldback Controller's work, its cut apart. -/
def foldedBy (p : Profile) (st : ChannelState) (r : DriveResolver) : DriveResolver :=
  if st = .off then r
  else if r.activeSet ≠ [] then
    { r with
      foldback := some (max (r.foldback.getD 1000 - p.foldbackStep) p.foldbackFloor)
      floorMarks :=
        if r.foldback = some p.foldbackFloor then
          (if p.escalation = 0 then r.floorMarks else floorMarksAfter p.escalation r.floorMarks)
        else r.floorMarks }
  else match r.foldback with
    | some level =>
      { r with foldback := if min 1000 (level + p.recoveryStep) = 1000 then none
                else some (min 1000 (level + p.recoveryStep)), floorMarks := 0 }
    | none => r

theorem stepDue_iff (s : State) (c : Channel) :
    stepDue c s = true ↔ s.arbiter.engine = .held c
      ∧ (s.arbiter.steps = 0 ∨ (profileOf s c).rampSpacing ≤ (s.now - s.arbiter.lastStep).toNat) := by
  simp only [stepDue, holdsEngine, Bool.and_eq_true, Bool.or_eq_true, beq_iff_eq, decide_eq_true_eq]
  rfl

/-- R100: what the ramp step changes. -/
theorem rampStep_if_eq (c : Channel) (s : State) (due : Bool) :
    (if due then rampStep c s else s) = (s.setArbiter (if due then
        { s.arbiter with steps := min 65535 (s.arbiter.steps + 1), lastStep := s.now } else s.arbiter)).setResolver c
      (rampedBy (profileOf s c) due (s.resolver c)) := by
  cases due
  · exact (State.setResolver_self s c).symm
  · apply State.same <;> simp [rampStep, rampedBy, profileOf]

/-- R117, R118: what a foldback step changes. -/
theorem foldbackStep_eq (hoff : (s.chan c).state ≠ .off) (hset : (s.resolver c).activeSet ≠ []) :
    foldbackStep c s = (s.setResolver c (foldedBy (profileOf s c) (s.chan c).state (s.resolver c))).setLink c
      { s.link c with exhausted := (s.link c).exhausted
          + if escalates (profileOf s c) (s.chan c).state (s.resolver c) then 1 else 0 } := by
  have hescalates : escalates (profileOf s c) (s.chan c).state (s.resolver c) = true
      ↔ (s.resolver c).foldback = some (profileOf s c).foldbackFloor ∧ (profileOf s c).escalation ≠ 0
        ∧ (s.resolver c).floorMarks + 1 = (profileOf s c).escalation := by
    simp [escalates, hoff, hset, and_assoc]
  unfold foldbackStep
  by_cases h : (s.resolver c).foldback = some (profileOf s c).foldbackFloor ∧ (profileOf s c).escalation ≠ 0
      ∧ (s.resolver c).floorMarks + 1 = (profileOf s c).escalation
  · simp only [hescalates.mpr h, if_true, if_pos h, foldedBy, if_neg hoff, if_pos hset]
    apply State.same <;> simp [deliverExhausted]
  · simp only [(Bool.not_eq_true _).mp (mt hescalates.mp h), if_neg h, foldedBy, if_neg hoff, if_pos hset]
    exact (State.setLink_self (s.setResolver c _) c).symm

theorem setResolver_setLink_self (s : State) (c : Channel) :
    s = (s.setResolver c { s.resolver c with drive := (s.resolver c).drive }).setLink c
      { s.link c with exhausted := (s.link c).exhausted + if false = true then 1 else 0 } := by
  show s = (s.setResolver c (s.resolver c)).setLink c ((s.setResolver c (s.resolver c)).link c)
  rw [State.setLink_self, State.setResolver_self]

/-- R117 to R119: what the Foldback Controller's work changes; where MUTE is asserted it leaves the drive alone. -/
theorem foldbackWork_eq (c : Channel) (s : State) :
    ∃ drive, ((s.chan c).mute = true → drive = (s.resolver c).drive) ∧
      foldbackWork c s =
        (s.setResolver c { foldedBy (profileOf s c) (s.chan c).state (s.resolver c) with drive := drive }).setLink c
          { s.link c with
            exhausted := (s.link c).exhausted
              + if escalates (profileOf s c) (s.chan c).state (s.resolver c) then 1 else 0 } := by
  unfold foldbackWork
  by_cases hoff : (s.chan c).state = .off
  · have hfolded : foldedBy (profileOf s c) (s.chan c).state (s.resolver c) = s.resolver c := if_pos hoff
    have hescalates : escalates (profileOf s c) (s.chan c).state (s.resolver c) = false := by simp [escalates, hoff]
    refine ⟨_, fun _ => rfl, ?_⟩
    rw [if_pos hoff, hfolded, hescalates]
    exact setResolver_setLink_self s c
  by_cases hset : (s.resolver c).activeSet = []
  · have hescalates : escalates (profileOf s c) (s.chan c).state (s.resolver c) = false := by simp [escalates, hset]
    refine ⟨_, fun _ => rfl, ?_⟩
    rw [if_neg hoff, if_neg (not_not_intro hset), hescalates]
    cases hf : (s.resolver c).foldback with
    | none =>
      have hfolded : foldedBy (profileOf s c) (s.chan c).state (s.resolver c) = s.resolver c := by
        simp [foldedBy, hoff, hset, hf]
      rw [hfolded]
      exact setResolver_setLink_self s c
    | some level =>
      have hfolded : (foldedBy (profileOf s c) (s.chan c).state (s.resolver c)) = { s.resolver c with
          foldback := if min 1000 (level + (profileOf s c).recoveryStep) = 1000 then none
            else some (min 1000 (level + (profileOf s c).recoveryStep)), floorMarks := 0 } := by
        simp only [foldedBy, if_neg hoff, if_neg (not_not_intro hset), hf]
      rw [hfolded]
      exact (State.setLink_self (recoveryStep c level s) c).symm
  · rw [if_neg hoff, if_pos hset, cut_eq, foldbackStep_eq hoff hset]
    have hdrive : (foldedBy (profileOf s c) (s.chan c).state (s.resolver c)).drive = (s.resolver c).drive := by
      simp [foldedBy, hoff, hset]
    refine ⟨if (s.chan c).mute = false then min (s.resolver c).drive
      (foldedBy (profileOf s c) (s.chan c).state (s.resolver c)).resolved else (s.resolver c).drive,
      fun hmute => by simp [hmute], ?_⟩
    apply State.same <;> simp [hdrive]

/-- R112: what the rise changes. -/
theorem raise_eq (c : Channel) (s : State) :
    raise c s = s.setResolver c { s.resolver c with
      drive := if (s.chan c).mute = true then (s.resolver c).drive else (s.resolver c).resolved } := by
  unfold raise
  cases (s.chan c).mute
  · rfl
  · exact (State.setResolver_self s c).symm

theorem reportStep_if_eq (c : Channel) (s : State) (b : Bool) :
    (if b then reportStep c s else s)
      = s.setLink c { s.link c with reports := (s.link c).reports + if b = true then 1 else 0 } := by
  cases b
  · exact (State.setLink_self s c).symm
  · rfl

/-- R100: the Arbiter's side of the ramp step. -/
def steppedBy (due : Bool) (now : Time) (a : Arbiter) : Arbiter :=
  if due = true then { a with steps := min 65535 (a.steps + 1), lastStep := now } else a

@[simp] theorem steppedBy_engine (due : Bool) (now : Time) (a : Arbiter) : (steppedBy due now a).engine = a.engine := by
  cases due <;> rfl

/-- R121: the limit set after the work of a mark, the rise apart. -/
def markedBy (p : Profile) (due : Bool) (st : ChannelState) (r : DriveResolver) : DriveResolver :=
  foldedBy p st (rampedBy p due r)

/-- R102, R104, R112, R121: what the work of a mark changes. -/
theorem markWork_eq (c : Channel) (s : State) (p : Profile) (due : Bool) (r : DriveResolver) (complete : Bool)
    (hp : profileOf s c = p) (hdue : stepDue c s = due) (hr : markedBy p due (s.chan c).state (s.resolver c) = r)
    (hcomplete : (s.arbiter.engine == .held c && r.rampComplete) = complete) :
    markWork c s = ((s.setResolver c { r with
        drive := if (s.chan c).mute = true then (s.resolver c).drive else r.resolved }).setArbiter
      (steppedBy due s.now s.arbiter)).setLink c { s.link c with
        exhausted := (s.link c).exhausted
          + if escalates p (s.chan c).state (rampedBy p due (s.resolver c)) then 1 else 0
        completions := (s.link c).completions + if complete = true then 1 else 0
        reports := (s.link c).reports + if (due && p.isLow && !complete) = true then 1 else 0 } := by
  subst hp hdue
  obtain ⟨drive, hdrive, hwork⟩ := foldbackWork_eq c ((s.setArbiter (steppedBy (stepDue c s) s.now s.arbiter)).setResolver
    c (rampedBy (profileOf s c) (stepDue c s) (s.resolver c)))
  simp only [State.setResolver_chan, State.setArbiter_chan, State.setResolver_resolver_same, profileOf_setArbiter,
    profileOf_setResolver] at hdrive hwork
  rw [show foldedBy (profileOf s c) (s.chan c).state (rampedBy (profileOf s c) (stepDue c s) (s.resolver c)) = r
    from hr] at hwork
  unfold markWork
  simp only [rampStep_if_eq, ← steppedBy.eq_def, hwork, raise_eq, completionTest_eq, reportStep_if_eq]
  clear hwork
  subst hcomplete
  have hcompleteDrive : DriveResolver.rampComplete { r with drive := drive } = r.rampComplete := rfl
  have hresolvedDrive : DriveResolver.resolved { r with drive := drive } = r.resolved := rfl
  have hmuted : (if (s.chan c).mute = true then drive else r.resolved)
      = if (s.chan c).mute = true then (s.resolver c).drive else r.resolved := by
    split
    · exact hdrive ‹_›
    · rfl
  apply State.same <;> simp [holdsEngine, completionFound, hcompleteDrive, hresolvedDrive, hmuted]

theorem exec_frameMark_of_none (h : (s.link c).marks = 0) : exec (.frameMark c) s = .next s := by
  simp [exec, execFrameMark, h]

theorem exec_frameMark_of {n : Nat} (h : (s.link c).marks = n + 1) :
    exec (.frameMark c) s = .next (markWork c (s.setLink c { s.link c with marks := n })) := by
  simp [exec, execFrameMark, h]

/-- R121: an OFF channel does no work at a mark. -/
theorem markWork_of_off (hoff : (s.chan c).state = .off) (hmute : (s.chan c).mute = true)
    (hengine : s.arbiter.engine ≠ .held c) : markWork c s = s := by
  simp [markWork, stepDue, holdsEngine, hengine, foldbackWork, hoff, completionTest, completionFound, raise, hmute]

/-! ### The limit set after a mark, entry by entry -/

section
variable (p : Profile) (due : Bool) (st : ChannelState) (r : DriveResolver)

theorem foldedBy_others : (foldedBy p st r).target = r.target ∧ (foldedBy p st r).positions = r.positions
    ∧ (foldedBy p st r).activeSet = r.activeSet ∧ (foldedBy p st r).ramp = r.ramp := by
  unfold foldedBy
  split
  · exact ⟨rfl, rfl, rfl, rfl⟩
  split
  · exact ⟨rfl, rfl, rfl, rfl⟩
  split <;> exact ⟨rfl, rfl, rfl, rfl⟩

theorem foldedBy_off : foldedBy p .off r = r := rfl

theorem escalates_off : escalates p .off r = false := rfl

theorem foldedBy_folding (hoff : st ≠ .off) (hset : r.activeSet ≠ []) :
    (foldedBy p st r).foldback = some (max (r.foldback.getD 1000 - p.foldbackStep) p.foldbackFloor)
    ∧ (foldedBy p st r).floorMarks = if r.foldback = some p.foldbackFloor ∧ p.escalation ≠ 0 then
        (if r.floorMarks + 1 = p.escalation then 0 else r.floorMarks + 1) else r.floorMarks := by
  rw [foldedBy, if_neg hoff, if_pos hset]
  refine ⟨rfl, ?_⟩
  by_cases hfloor : r.foldback = some p.foldbackFloor <;> by_cases hescalation : p.escalation = 0 <;>
    simp [hfloor, hescalation, floorMarksAfter]

theorem escalates_iff (hoff : st ≠ .off) (hset : r.activeSet ≠ []) : escalates p st r = true
    ↔ r.foldback = some p.foldbackFloor ∧ p.escalation ≠ 0 ∧ r.floorMarks + 1 = p.escalation := by
  simp [escalates, hoff, hset, and_assoc]

theorem escalates_recovering (hset : r.activeSet = []) : escalates p st r = false := by simp [escalates, hset]

theorem foldedBy_recovering (hoff : st ≠ .off) (hset : r.activeSet = []) :
    (r.foldback = none → foldedBy p st r = r)
    ∧ ∀ level, r.foldback = some level → (foldedBy p st r).floorMarks = 0
        ∧ (foldedBy p st r).foldback
          = if 1000 ≤ level + p.recoveryStep then none else some (level + p.recoveryStep) := by
  rw [foldedBy, if_neg hoff, if_neg (not_not_intro hset)]
  refine ⟨fun h => by rw [h], fun level h => ?_⟩
  rw [h]
  refine ⟨rfl, ?_⟩
  by_cases hfull : 1000 ≤ level + p.recoveryStep
  · simp [hfull]
  · have hlow : level + p.recoveryStep < 1000 := Nat.not_le.mp hfull
    simp [hfull, Nat.min_eq_right (Nat.le_of_lt hlow), Nat.ne_of_lt hlow]

end

/-- Settles O39: by the closed form of the work of a mark, entry by entry. -/
theorem marksDriveTheChannel : Obligations.MarksDriveTheChannel := by
  intro s c
  refine ⟨exec_frameMark_of_none, fun n h hoff hmute hengine => ?off, fun p n due h hp hdue => ?work⟩
  case off =>
    refine ⟨_, exec_frameMark_of h, ?_⟩
    rw [markWork_of_off (by simpa using hoff) (by simpa using hmute) (by simpa using hengine)]
    exact ⟨rfl, setLink_otherChannels _ _ _, by simp⟩
  case work =>
    have hprofile : profileOf s c = p := profileOf_of_some hp
    have hdue' : stepDue c s = due := by
      rw [Bool.eq_iff_iff, hdue, stepDue_iff, hprofile]
    obtain ⟨htarget, hpositions, hset, hramp⟩ := foldedBy_others p (s.chan c).state (rampedBy p due (s.resolver c))
    refine ⟨_, exec_frameMark_of h, ?_⟩
    rw [markWork_eq c (s.setLink c { s.link c with marks := n }) p due
      (foldedBy p (s.chan c).state (rampedBy p due (s.resolver c))) _ hprofile hdue' rfl rfl]
    have hfolding := foldedBy_folding p (s.chan c).state (rampedBy p due (s.resolver c))
    have hrecovering := foldedBy_recovering p (s.chan c).state (rampedBy p due (s.resolver c))
    have hescalates : (s.chan c).state ≠ .off → (s.resolver c).activeSet ≠ [] →
        (escalates p (s.chan c).state (rampedBy p due (s.resolver c)) = true
          ↔ (s.resolver c).foldback = some p.foldbackFloor ∧ p.escalation ≠ 0
            ∧ (s.resolver c).floorMarks + 1 = p.escalation) :=
      escalates_iff p (s.chan c).state (rampedBy p due (s.resolver c))
    have hsteady := escalates_recovering p (s.chan c).state (rampedBy p due (s.resolver c))
    generalize hr : foldedBy p (s.chan c).state (rampedBy p due (s.resolver c)) = r at *
    refine ⟨rfl, fun d hd => by simp [hd], rfl, by simp [htarget, rampedBy], by simp [hpositions, rampedBy],
      by simp [hset, rampedBy], by simp [hramp, rampedBy], fun hoff => ?off, fun hoff hset => ?folding,
      fun hoff hset => ?recovering, fun hmute => by simp [hmute],
      fun hmute => by simp [hmute, DriveResolver.resolved, DriveResolver.levels], ?link⟩
    case off =>
      have hsame : r = rampedBy p due (s.resolver c) := by rw [← hr, hoff, foldedBy_off]
      simp [hsame, hoff, escalates_off, rampedBy]
    case folding =>
      obtain ⟨hfoldback, hfloor⟩ := hfolding hoff hset
      have hfloor' : r.floorMarks = if (s.resolver c).foldback = some p.foldbackFloor ∧ p.escalation ≠ 0 then
          (if (s.resolver c).floorMarks + 1 = p.escalation then 0 else (s.resolver c).floorMarks + 1)
        else (s.resolver c).floorMarks := hfloor
      refine ⟨by simpa [rampedBy] using hfoldback, fun h => ?_, fun hat hesc hmarks => ?_, fun hat hesc hmarks => ?_⟩
      · have hno : escalates p (s.chan c).state (rampedBy p due (s.resolver c)) = false :=
          (Bool.not_eq_true _).mp fun k => ((hescalates hoff hset).mp k).2.1 (h.resolve_left
            (not_not_intro ((hescalates hoff hset).mp k).1))
        rw [if_neg fun k => k.2 (h.resolve_left (not_not_intro k.1))] at hfloor'
        simp [hno, hfloor']
      · have hno : escalates p (s.chan c).state (rampedBy p due (s.resolver c)) = false :=
          (Bool.not_eq_true _).mp fun k => hmarks ((hescalates hoff hset).mp k).2.2
        rw [if_pos ⟨hat, hesc⟩, if_neg hmarks] at hfloor'
        simp [hno, hfloor']
      · have hyes := (hescalates hoff hset).mpr ⟨hat, hesc, hmarks⟩
        rw [if_pos ⟨hat, hesc⟩, if_pos hmarks] at hfloor'
        simp [hyes, hfloor']
    case recovering =>
      obtain ⟨hnone, hsome⟩ := hrecovering hoff hset
      refine ⟨by simp [hsteady hset], fun hf => ?_, fun level hf => ?_⟩
      · have hsame := hnone hf
        simp [hsame, rampedBy, hf]
      · obtain ⟨hfloor, hfoldback⟩ := hsome level hf
        simp [hfloor, hfoldback]
    case link =>
      have hcomplete : ∀ d, DriveResolver.rampComplete { r with drive := d } = r.rampComplete := fun _ => rfl
      by_cases hheld : s.arbiter.engine = .held c
      · cases hc : r.rampComplete <;> simp [hcomplete, hheld, hc, Profile.isLow]
      · have hnever : due = false := by
          rw [← Bool.not_eq_true, hdue]
          exact fun h => hheld h.1
        simp [hheld, hnever]

end Sys2Proof.Machine


/-! The Position Monitor (chapter 7): the count of active positions, presence, identity, service and trips. -/

namespace Sys2Proof.Machine

variable {s : State} {c : Channel} {p q : PositionIx} {st : PositionState}

/-! ## Slots and counts -/

/-- A position's slot, 0 for slot 1. -/
def slotOf (p : PositionIx) : Fin 6 := ⟨p.val % 6, Nat.mod_lt _ (by decide)⟩

@[simp] theorem positionOf_slotOf (p : PositionIx) : positionOf (channelOf p) (slotOf p) = p :=
  Fin.ext (by simp only [positionOf, channelOf, slotOf]; omega)

@[simp] theorem channelOf_positionOf (c : Channel) (k : Fin 6) : channelOf (positionOf c k) = c :=
  Fin.ext (by simp only [positionOf, channelOf]; omega)

@[simp] theorem slotOf_positionOf (c : Channel) (k : Fin 6) : slotOf (positionOf c k) = k :=
  Fin.ext (by simp only [positionOf, slotOf]; omega)

theorem positionOf_inj {c d : Channel} {k j : Fin 6} : positionOf c k = positionOf d j ↔ c = d ∧ k = j :=
  ⟨fun h => ⟨by simpa using congrArg channelOf h, by simpa using congrArg slotOf h⟩, fun ⟨h, k⟩ => h ▸ k ▸ rfl⟩

/-- R130: the count as a sum over the slots. -/
theorem activeCount_eq_sum (s : State) (c : Channel) :
    activeCount s c = ∑ k : Fin 6, if (s.position (positionOf c k)).state = .active then 1 else 0 := by
  rw [activeCount, ← List.countP_eq_length_filter, Finset.sum_boole, Finset.card_def]
  simp only [Nat.cast_id]
  rw [Finset.filter_val, ← Multiset.countP_eq_card_filter]
  show _ = Multiset.countP _ (List.finRange 6 : Multiset (Fin 6))
  rw [Multiset.coe_countP]
  congr 1

theorem activeCount_congr {t : State}
    (h : ∀ k, (t.position (positionOf c k)).state = (s.position (positionOf c k)).state) :
    activeCount t c = activeCount s c := by
  simp only [activeCount_eq_sum, h]

/-- R130: a change of one position moves its channel's count by what it is in service before and after. -/
theorem activeCount_setPosition (s : State) (p : PositionIx) (x : PositionRecord) :
    activeCount (s.setPosition p x) (channelOf p) + (if (s.position p).state = .active then 1 else 0)
      = activeCount s (channelOf p) + if x.state = .active then 1 else 0 := by
  have hothers : ∀ k ∈ Finset.univ.erase (slotOf p),
      (if ((s.setPosition p x).position (positionOf (channelOf p) k)).state = .active then 1 else 0)
        = if (s.position (positionOf (channelOf p) k)).state = .active then 1 else 0 := fun k hk => by
    have hne : positionOf (channelOf p) k ≠ p := fun e =>
      Finset.ne_of_mem_erase hk (by rw [← e]; simp)
    rw [State.setPosition_position_ne _ _ _ _ hne]
  rw [activeCount_eq_sum, activeCount_eq_sum, ← Finset.add_sum_erase _ _ (Finset.mem_univ (slotOf p)),
    Finset.sum_congr rfl hothers, ← Finset.add_sum_erase (s := Finset.univ) (f := fun k =>
      if (s.position (positionOf (channelOf p) k)).state = .active then 1 else 0) (h := Finset.mem_univ (slotOf p))]
  simp only [positionOf_slotOf, State.setPosition_position_same]
  omega

/-- R130: the counts sent when the position goes to a state. -/
def countSent (p : PositionIx) (st : PositionState) (s : State) : List Nat :=
  if (s.position p).state = .active then (if st = .active then [] else [activeCount s (channelOf p) - 1])
  else if st = .active then [activeCount s (channelOf p) + 1] else []

/-- R130: what a counted move changes. -/
theorem moveCounted_eq (p : PositionIx) (st : PositionState) (s : State) :
    moveCounted p st s = (s.setPosition p { s.position p with state := st, bias := st == .active }).setLink
      (channelOf p) { s.link (channelOf p) with
        counts := (s.link (channelOf p)).counts ++ countSent p st s } := by
  have hcount := activeCount_setPosition s p { s.position p with state := st, bias := st == .active }
  unfold moveCounted
  rw [moveTo_eq]
  generalize hu : s.setPosition p { s.position p with state := st, bias := st == .active } = u at hcount ⊢
  have hlink : u.link (channelOf p) = s.link (channelOf p) := by rw [← hu]; rfl
  simp only
  by_cases hsame : activeCount u (channelOf p) = activeCount s (channelOf p)
  · have hsent : countSent p st s = [] := by
      unfold countSent
      by_cases hold : (s.position p).state = .active <;> by_cases hnew : st = .active <;>
        simp only [hold, hnew, if_true, if_false] at hcount ⊢ <;> omega
    rw [if_pos hsame, hsent, List.append_nil, ← hlink]
    exact (State.setLink_self u (channelOf p)).symm
  · have hsent : countSent p st s = [activeCount u (channelOf p)] := by
      unfold countSent
      by_cases hold : (s.position p).state = .active <;> by_cases hnew : st = .active <;>
        simp only [hold, hnew, if_true, if_false] at hcount ⊢
      · exact absurd (by omega) hsame
      · exact congrArg (fun n => [n]) (by omega)
      · exact congrArg (fun n => [n]) (by omega)
      · exact absurd (by omega) hsame
    rw [if_neg hsame, hsent, ← hlink]
    rfl

theorem beq_active_of_ne (h : st ≠ .active) : (st == PositionState.active) = false := beq_eq_false_iff_ne.mpr h

/-- R138: what recording a position's change adds. -/
theorem recordPosition_eq (p : PositionIx) (after : Option Stamp) (condition : Option EntryIx) (value : Option Nat)
    (s : State) :
    recordPosition p after condition value s = s.setJournal { s.journal with
      waiting := s.journal.waiting ++ [⟨s.journal.sent, .positions, after,
        { time := s.now, kind := .positionChanged, channel := some (channelOf p), position := some p
          condition := condition, value := value, newState := .position (s.position p).state }, false⟩]
      sent := s.journal.sent + 1 } := rfl

/-! ## In and out of service (R131, R132) -/

section
variable {a : Arguments}

theorem enablePosition_of_badArgument (h : 24 ≤ a.word1) : enablePosition a s = (s, ⟨.badArgument, 0, 0⟩) := by
  simp [enablePosition, index_of_le h]

theorem enablePosition_of_refusal (hp : a.word1 = p.val) {code : ResultCode} (h : enableRefusal p s = some code) :
    enablePosition a s = (s, ⟨code, 0, 0⟩) := by
  simp [enablePosition, hp, h]

theorem enablePosition_of_accepted (hp : a.word1 = p.val) (h : enableRefusal p s = none) :
    enablePosition a s = (recordPosition p none none none (moveCounted p .active s), ⟨.ok, 0, 0⟩) := by
  simp [enablePosition, hp, h]

theorem disablePosition_of_badArgument (h : 24 ≤ a.word1) : disablePosition a s = (s, ⟨.badArgument, 0, 0⟩) := by
  simp [disablePosition, index_of_le h]

theorem disablePosition_of_out (hp : a.word1 = p.val) (hactive : (s.position p).state ≠ .active)
    (htripped : (s.position p).state ≠ .tripped) : disablePosition a s = (s, ⟨.wrongState, 0, 0⟩) := by
  simp only [disablePosition, hp, index_val]
  cases hst : (s.position p).state <;> simp_all

theorem disablePosition_of_in (hp : a.word1 = p.val)
    (h : (s.position p).state = .active ∨ (s.position p).state = .tripped) :
    disablePosition a s = (recordPosition p none none none (moveCounted p .disabled s), ⟨.ok, 0, 0⟩) := by
  rcases h with h | h <;> simp [disablePosition, hp, h]

end

theorem enableRefusal_noProfile (h : (s.chan (channelOf p)).profile = none) :
    enableRefusal p s = some .noProfile := by
  simp [enableRefusal, h]

section
variable {f : Profile} (hf : (s.chan (channelOf p)).profile = some f)
include hf

theorem enableRefusal_notInstalled (h : f.installed.testBit (p.val % 6) = false) :
    enableRefusal p s = some .notInstalled := by
  simp [enableRefusal, hf, h]

variable (hinstalled : f.installed.testBit (p.val % 6) = true)
include hinstalled

theorem enableRefusal_stillActive (h : tripBearing p s = true) : enableRefusal p s = some .stillActive := by
  simp [enableRefusal, hf, hinstalled, h]

theorem enableRefusal_wrongState (h : tripBearing p s = false) (hdisabled : (s.position p).state ≠ .disabled)
    (htripped : (s.position p).state ≠ .tripped) : enableRefusal p s = some .wrongState := by
  cases hst : (s.position p).state <;> simp_all [enableRefusal]

theorem enableRefusal_none (h : tripBearing p s = false)
    (hst : (s.position p).state = .disabled ∨ (s.position p).state = .tripped) : enableRefusal p s = none := by
  rcases hst with hst | hst <;> simp [enableRefusal, hf, hinstalled, h, hst]

end

/-- Settles O27: the checks in their order, and the two counted moves. -/
theorem positionsGoInAndOutOfService : Obligations.PositionsGoInAndOutOfService := by
  intro s k n w1 w2 w3
  refine ⟨fun h => ⟨fun hbad => h.refusal rfl (enablePosition_of_badArgument hbad), fun p hp =>
      ⟨fun hnone => ?noProfile, fun f hf => ⟨fun hbit => ?notInstalled, fun hbit htrip => ?stillActive,
        fun hbit htrip hdis htr => ?wrongState, fun hbit htrip hst => ?enabled⟩⟩⟩,
    fun h => ⟨fun hbad => h.refusal rfl (disablePosition_of_badArgument hbad), fun p hp =>
      ⟨fun hactive htr => ?outOfService, fun hst => ?disabled⟩⟩⟩
  case noProfile =>
    exact h.refusal rfl (enablePosition_of_refusal (a := ⟨w1, w2, w3⟩) hp (enableRefusal_noProfile hnone))
  case notInstalled =>
    exact h.refusal rfl (enablePosition_of_refusal (a := ⟨w1, w2, w3⟩) hp (enableRefusal_notInstalled hf hbit))
  case stillActive =>
    exact h.refusal rfl (enablePosition_of_refusal (a := ⟨w1, w2, w3⟩) hp (enableRefusal_stillActive hf hbit htrip))
  case wrongState =>
    exact h.refusal rfl
      (enablePosition_of_refusal (a := ⟨w1, w2, w3⟩) hp (enableRefusal_wrongState hf hbit htrip hdis htr))
  case enabled =>
    have hout : (s.position p).state ≠ .active := by rcases hst with hst | hst <;> simp [hst]
    have hwork := enablePosition_of_accepted (a := ⟨w1, w2, w3⟩) (s := writeSlotState k 2 s) hp
      (enableRefusal_none hf hbit htrip hst)
    have hcount := activeCount_setPosition s p { s.position p with state := .active, bias := true }
    have hsent : countSent p .active (writeSlotState k 2 s) = [activeCount s (channelOf p) + 1] :=
      (if_neg hout).trans (if_pos rfl)
    rw [recordPosition_eq, moveCounted_eq, hsent] at hwork
    refine ⟨_, congrArg Host.Outcome.next (h.visitFor_eq rfl hwork), h.answered rfl (by simp) (by simp), ?frame,
      ?position, fun q hq => ?positions, ?count, ?link, ?sent, fun d hd => ?others, completeSlot_written_slot rfl⟩
    case frame => rw [completeSlot_frame]; rfl
    case position => simp [writeSlotState]
    case positions => simp [writeSlotState, hq]
    case count =>
      rw [if_neg hout, if_pos rfl] at hcount
      rw [← hcount]
      exact activeCount_congr fun j => by rw [completeSlot_position]; rfl
    case link => simp [writeSlotState]
    case sent => rw [Sent, completeSlot_journal]; simp [writeSlotState]
    case others => simp [writeSlotState, hd]
  case outOfService => exact h.refusal rfl (disablePosition_of_out (a := ⟨w1, w2, w3⟩) hp hactive htr)
  case disabled =>
    have hwork := disablePosition_of_in (a := ⟨w1, w2, w3⟩) (s := writeSlotState k 2 s) hp hst
    have hsent : countSent p .disabled (writeSlotState k 2 s)
        = if (s.position p).state = .active then [activeCount s (channelOf p) - 1] else [] := rfl
    rw [recordPosition_eq, moveCounted_eq, hsent] at hwork
    refine ⟨_, congrArg Host.Outcome.next (h.visitFor_eq rfl hwork), h.answered rfl (by simp) (by simp), ?frame,
      ?position, fun q hq => ?positions, ?link, ?sent, fun d hd => ?others, completeSlot_written_slot rfl⟩
    case frame => rw [completeSlot_frame]; rfl
    case position => simp [writeSlotState]
    case positions => simp [writeSlotState, hq]
    case link => simp [writeSlotState]
    case sent => rw [Sent, completeSlot_journal]; simp [writeSlotState]
    case others => simp [writeSlotState, hd]

/-! ## Presence (R126, R128) -/

theorem exec_presenceChange_of_not {active : Bool} {spell : Nat}
    (h : spell < 1000000 ∨ (s.position p).presence = active) : exec (.presenceChange p active spell) s = .next s := by
  refine if_neg fun ⟨_, hspell, hpresence⟩ => ?_
  rcases h with h | h
  · exact absurd hspell (Nat.not_le.mpr h)
  · exact hpresence h

theorem exec_presenceChange_of {active : Bool} {spell : Nat} (hrunning : running s = true) (hspell : 1000000 ≤ spell)
    (hpresence : (s.position p).presence ≠ active) :
    exec (.presenceChange p active spell) s = .next (takePresence p active s) :=
  if_pos ⟨hrunning, hspell, hpresence⟩

theorem takePresence_of_empty (active : Bool) (h : (s.position p).state = .empty) :
    takePresence p active s = s.setPosition p { s.position p with
      presence := active, presenceTimer := if active = true then some (s.now + 100) else none } := by
  cases active <;> simp [takePresence, h, later, Config.presenceMs]

theorem takePresence_of_seated (h : (s.position p).state ≠ .empty) :
    takePresence p true s = s.setPosition p { s.position p with presence := true } := by
  cases hst : (s.position p).state <;> simp_all [takePresence]

theorem takePresence_of_lost (h : (s.position p).state ≠ .empty) : takePresence p false s = loseModule p s := by
  cases hst : (s.position p).state <;> simp_all [takePresence]

/-- R128: what the loss of a module changes. -/
theorem loseModule_eq (p : PositionIx) (s : State) :
    loseModule p s = ((s.setPosition p { s.position p with
        state := .empty, identity := 0xFF, bias := false, presence := false, read := none }).setLink (channelOf p)
      { s.link (channelOf p) with counts := (s.link (channelOf p)).counts ++
          if (s.position p).state = .active then [activeCount s (channelOf p) - 1] else [] }).setJournal
        { s.journal with
          waiting := s.journal.waiting ++ [⟨s.journal.sent, .positions, none,
            { time := s.now, kind := .positionChanged, channel := some (channelOf p), position := some p
              newState := .position .empty }, false⟩]
          sent := s.journal.sent + 1 } := by
  have hcount : activeCount (s.setPosition p { s.position p with presence := false, read := none, identity := 0xFF })
      (channelOf p) = activeCount s (channelOf p) := activeCount_congr fun k => by
    by_cases hk : positionOf (channelOf p) k = p
    · simp [hk]
    · simp [hk]
  rw [loseModule, recordPosition_eq, moveCounted_eq, countSent, hcount, beq_active_of_ne (by simp)]
  apply State.same <;> simp

theorem exec_presenceTimerEnd_early {finish : Time} (h : (s.position p).presenceTimer = some finish)
    (hearly : 2147483648 ≤ (s.now - finish).toNat) : exec (.presenceTimerEnd p) s = .next s := by
  simp [exec, execPresenceTimerEnd, h, not_reached_of_le hearly]

/-- R126: the start of an identity read. -/
theorem exec_presenceTimerEnd_of {finish : Time} (h : (s.position p).presenceTimer = some finish)
    (hst : (s.position p).state = .empty) (hreached : (s.now - finish).toNat < 2147483648) :
    exec (.presenceTimerEnd p) s = .next (s.setPosition p { s.position p with
      state := .identifying, identity := 0xFF, bias := false, presenceTimer := none, read := some (s.now + 40) }) := by
  simp only [exec, execPresenceTimerEnd, h, hst, reached_of_lt hreached, and_self, if_true]
  exact congrArg Host.Outcome.next (by
    apply State.same <;>
      simp [startRead, moveTo, later, Config.identityReadMs, beq_active_of_ne (st := .identifying) (by simp)])

/-- Settles O49: by the position's state and the line's new level, and by the presence timer. -/
theorem modulesComeAndGo : Obligations.ModulesComeAndGo := by
  intro s p
  refine ⟨fun active spell => ⟨exec_presenceChange_of_not, fun hrunning hspell hpresence =>
    ⟨fun hst => ?empty, fun hst hactive => ?seated, fun hst hactive => ?lost⟩⟩,
    fun finish htimer hst => ⟨fun hreached => ?read, exec_presenceTimerEnd_early htimer⟩⟩
  case empty =>
    refine ⟨_, exec_presenceChange_of hrunning hspell hpresence, ?_⟩
    rw [takePresence_of_empty active hst]
    exact ⟨rfl, fun q hq => by simp [hq], by simp⟩
  case seated =>
    subst hactive
    refine ⟨_, exec_presenceChange_of hrunning hspell hpresence, ?_⟩
    rw [takePresence_of_seated hst]
    exact ⟨rfl, fun q hq => by simp [hq], by simp⟩
  case lost =>
    subst hactive
    refine ⟨_, exec_presenceChange_of hrunning hspell hpresence, ?_⟩
    rw [takePresence_of_lost hst, loseModule_eq]
    exact ⟨rfl, fun q hq => by simp [hq], by simp, fun d hd => by simp [hd], by simp, by simp [Sent]⟩
  case read =>
    exact ⟨_, exec_presenceTimerEnd_of htimer hst hreached, rfl, fun q hq => by simp [hq], by simp⟩

/-! ## Identity and trips (R127, R133) -/

theorem exec_identityReadEnd_early {finish : Time} {code : Option Byte} (h : (s.position p).read = some finish)
    (hearly : 2147483648 ≤ (s.now - finish).toNat) : exec (.identityReadEnd p code) s = .next s := by
  simp [exec, execIdentityReadEnd, h, not_reached_of_le hearly]

theorem exec_identityReadEnd_of {finish : Time} {code : Option Byte} (h : (s.position p).read = some finish)
    (hst : (s.position p).state = .identifying) (hreached : (s.now - finish).toNat < 2147483648) :
    exec (.identityReadEnd p code) s = .next (endRead p (code.getD 0xFF) s) := by
  simp [exec, execIdentityReadEnd, h, hst, reached_of_lt hreached]

/-- R127: what the end of an identity read changes. -/
theorem endRead_eq (p : PositionIx) (code : Byte) (s : State) (st : PositionState)
    (hst : identifiedState (s.chan (channelOf p)).profile code = st) (hout : st ≠ .active) :
    endRead p code s = (s.setPosition p { s.position p with
        state := st, identity := code, bias := false, read := none }).setJournal { s.journal with
      waiting := s.journal.waiting ++ [⟨s.journal.sent, .positions, none,
        { time := s.now, kind := .positionChanged, channel := some (channelOf p), position := some p
          value := some code.toNat, newState := .position st }, false⟩]
      sent := s.journal.sent + 1 } := by
  subst hst
  rw [endRead, recordPosition_eq]
  apply State.same <;> simp [moveTo, beq_active_of_ne hout]

theorem identifiedState_none (code : Byte) : identifiedState none code = .disabled := rfl

theorem identifiedState_some (f : Profile) (code : Byte) :
    identifiedState (some f) code = if code.toNat = f.identity then .disabled else .refused := by
  by_cases h : code.toNat = f.identity <;> simp [identifiedState, accepted, h]

theorem identifiedState_ne_active (profile : Option Profile) (code : Byte) :
    identifiedState profile code ≠ .active := by
  unfold identifiedState
  split <;> simp

/-- R133: the first trip of the entry for the position. -/
theorem exec_positionTrip_of {e : EntryIx} {front rest : List TripDelivery} {sent : Nat}
    (h : s.trips = front ++ ⟨p, e, sent⟩ :: rest) (hfront : ∀ d, d ∈ front → ¬(d.position = p ∧ d.entry = e)) :
    exec (.positionTrip p e) s
      = .next (takeTrip p e (some ⟨.evaluator, sent⟩) (s.setTrips (front ++ rest))) := by
  have hnone : ∀ d ∈ front, isTrip p e d = false := fun d hd => by
    have := hfront d hd
    simpa [isTrip] using this
  have hfind : s.trips.find? (isTrip p e) = some ⟨p, e, sent⟩ := by
    rw [h, List.find?_append, List.find?_eq_none.mpr (by simpa using hnone)]
    simp [isTrip]
  have herase : s.trips.eraseP (isTrip p e) = front ++ rest := by
    rw [h, List.eraseP_append_right _ (by simpa using hnone), List.eraseP_cons_of_pos (by simp [isTrip])]
  simp [exec, execPositionTrip, hfind, herase]

theorem takeTrip_of_active (e : EntryIx) (after : Option Stamp) (h : (s.position p).state = .active) :
    takeTrip p e after s = recordPosition p after (some e) none (moveCounted p .tripped s) := by
  simp [takeTrip, h]

theorem takeTrip_of_out (e : EntryIx) (after : Option Stamp) (h : (s.position p).state ≠ .active) :
    takeTrip p e after s = recordPosition p after (some e) none s := by
  cases hst : (s.position p).state <;> simp_all [takeTrip]

theorem relayEnergized_of_tripped (h : (s.position p).state = .tripped) : relayEnergized s = false := by
  unfold relayEnergized
  cases s.phase <;> simp
  exact fun _ hall => absurd h (hall p)

/-- Settles O50: by the timer of the read, and by whether the tripped position is in service. -/
theorem modulesAreIdentifiedAndTripped : Obligations.ModulesAreIdentifiedAndTripped := by
  intro s p
  refine ⟨fun finish code hread hst => ⟨fun hreached => ?identified, exec_identityReadEnd_early hread⟩,
    fun e front rest sent htrips hfront => ⟨_, exec_positionTrip_of htrips hfront, ?tripped⟩⟩
  case identified =>
    refine ⟨_, identifiedState (s.chan (channelOf p)).profile (code.getD 0xFF),
      exec_identityReadEnd_of hread hst hreached, ?_⟩
    rw [endRead_eq p _ s _ rfl (identifiedState_ne_active _ _)]
    exact ⟨rfl, fun q hq => by simp [hq], by simp, fun hp => by rw [hp, identifiedState_none],
      fun f hf => by rw [hf, identifiedState_some], by simp [Sent]⟩
  case tripped =>
    by_cases hactive : (s.position p).state = .active
    · have hactive' : ((s.setTrips (front ++ rest)).position p).state = .active := hactive
      rw [takeTrip_of_active e _ hactive', recordPosition_eq, moveCounted_eq, countSent, if_pos hactive']
      refine ⟨rfl, fun q hq => by simp [hq], fun d hd => by simp [hd], by simp [hactive], ?_, fun _ => ?_,
        by simp [Sent]⟩
      · have hcount : activeCount (s.setTrips (front ++ rest)) (channelOf p) = activeCount s (channelOf p) := rfl
        simp [hactive, hcount]
      · exact relayEnergized_of_tripped (p := p) (by simp)
    · have hactive' : ((s.setTrips (front ++ rest)).position p).state ≠ .active := hactive
      rw [takeTrip_of_out e _ hactive', recordPosition_eq]
      exact ⟨rfl, fun q hq => by simp, fun d hd => by simp, by simp [hactive], by simp [hactive],
        fun h => absurd h hactive, by simp [Sent]⟩

end Sys2Proof.Machine


/-! LOAD_PROFILE and the re-check of a channel's positions (R50 to R52, R136, R137). -/

namespace Sys2Proof.Machine

variable {s t : State} {c : Channel} {p : PositionIx}

/-! ## One position at the re-check -/

/-- R137: a position's record after the re-check by a profile. -/
def recheckedRecord (f : Profile) (k : Fin 6) (r : PositionRecord) : PositionRecord :=
  if recheckedState r.state (accepted (some f) r.identity) (f.installs k) = r.state then r
  else { r with state := recheckedState r.state (accepted (some f) r.identity) (f.installs k), bias := false }

/-- R137: the re-check never brings a position into service. -/
theorem recheckedState_eq_or_ne_active (st : PositionState) (ok installed : Bool) :
    recheckedState st ok installed = st ∨ recheckedState st ok installed ≠ .active := by
  cases st <;> cases ok <;> cases installed <;> simp [recheckedState]

theorem recheckedRecord_state (f : Profile) (k : Fin 6) (r : PositionRecord) :
    (recheckedRecord f k r).state = recheckedState r.state (accepted (some f) r.identity) (f.installs k) := by
  unfold recheckedRecord
  split
  · exact Eq.symm ‹_›
  · rfl

theorem recheckedRecord_of_same (f : Profile) (k : Fin 6) (r : PositionRecord)
    (h : (recheckedRecord f k r).state = r.state) : recheckedRecord f k r = r :=
  if_pos ((recheckedRecord_state f k r).symm.trans h)

theorem recheckedRecord_of_changed (f : Profile) (k : Fin 6) (r : PositionRecord)
    (h : (recheckedRecord f k r).state ≠ r.state) :
    recheckedRecord f k r = { r with state := (recheckedRecord f k r).state, bias := false } := by
  rw [recheckedRecord_state] at h ⊢
  exact if_neg h

/-- R137, R138: the record of a position's change at the re-check. -/
def recheckNote (c : Channel) (k : Fin 6) (st : PositionState) (now : Time) : Record :=
  { time := now, kind := .positionChanged, channel := some c, position := some (positionOf c k)
    newState := .position st }

/-- R137: what the re-check of one position changes: the position, and a record where its state changes. -/
theorem recheckPosition_eq (c : Channel) (f : Profile) (k : Fin 6) (s : State) :
    (let r := recheckedRecord f k (s.position (positionOf c k))
    if r.state = (s.position (positionOf c k)).state then recheckPosition c f k s = s
    else recheckPosition c f k s = sendRecord .positions none false (recheckNote c k r.state s.now)
      (s.setPosition (positionOf c k) r)) := by
  intro r
  have hr : r.state = recheckedState (s.position (positionOf c k)).state
      (accepted (some f) (s.position (positionOf c k)).identity) (f.installs k) := recheckedRecord_state _ _ _
  by_cases h : r.state = (s.position (positionOf c k)).state
  · rw [if_pos h]
    exact if_pos (hr.symm.trans h)
  · rw [if_neg h]
    have hst : recheckedState (s.position (positionOf c k)).state
      (accepted (some f) (s.position (positionOf c k)).identity) (f.installs k)
        ≠ (s.position (positionOf c k)).state := fun e => h (hr.trans e)
    have hout : r.state ≠ .active := hr ▸ (recheckedState_eq_or_ne_active _ _ _).resolve_left hst
    have hrecord : r = { s.position (positionOf c k) with state := r.state, bias := false } :=
      recheckedRecord_of_changed f k _ h
    rw [recheckPosition, if_neg hst, ← hr, moveTo_eq, beq_active_of_ne hout, ← hrecord, recordPosition_eq]
    simp [sendRecord, recheckNote]

/-! ## The six positions -/

/-- R137: the slots of `l` have had their re-check: the positions, and the records of those that changed. -/
structure RecheckedSlots (c : Channel) (f : Profile) (l : List (Fin 6)) (s t : State) : Prop where
  frame : t = { s with positions := t.positions, journal := t.journal }
  slots : ∀ k ∈ l, t.position (positionOf c k) = recheckedRecord f k (s.position (positionOf c k))
  others : ∀ q, (∀ k ∈ l, q ≠ positionOf c k) → t.position q = s.position q
  sent : SentAll s t .positions none ((l.filter (fun k =>
    decide ((recheckedRecord f k (s.position (positionOf c k))).state ≠ (s.position (positionOf c k)).state))).map
      (fun k => recheckNote c k (recheckedRecord f k (s.position (positionOf c k))).state s.now))

theorem recheckedSlots_forEach (c : Channel) (f : Profile) : ∀ (l : List (Fin 6)) (s : State), l.Nodup →
    RecheckedSlots c f l s (forEach l (recheckPosition c f) s)
  | [], s, _ => ⟨rfl, by simp, fun _ _ => rfl, (sentAll_nil _ _ _ _).mpr rfl⟩
  | k :: l, s, hl => by
    obtain ⟨hk, hl⟩ := List.nodup_cons.mp hl
    rw [forEach_cons]
    have hone := recheckPosition_eq c f k s
    simp only at hone
    have ih := recheckedSlots_forEach c f l (recheckPosition c f k s) hl
    generalize forEach l (recheckPosition c f) (recheckPosition c f k s) = u at ih
    obtain ⟨hframe, hslots, hothers, hsent⟩ := ih
    have hne : ∀ j ∈ l, positionOf c j ≠ positionOf c k := fun j hj e => hk ((positionOf_inj.mp e).2 ▸ hj)
    by_cases h : (recheckedRecord f k (s.position (positionOf c k))).state = (s.position (positionOf c k)).state
    · rw [if_pos h] at hone
      rw [hone] at hframe hslots hothers hsent
      refine ⟨hframe, List.forall_mem_cons.mpr ⟨?_, hslots⟩, fun q hq => hothers q (List.forall_mem_cons.mp hq).2, ?_⟩
      · rw [hothers _ fun j hj => (hne j hj).symm, recheckedRecord_of_same f k _ h]
      · rwa [List.filter_cons_of_neg (by simp [h])]
    · rw [if_neg h] at hone
      have hsame : ∀ q, q ≠ positionOf c k → (recheckPosition c f k s).position q = s.position q := fun q hq => by
        rw [hone]; simp [sendRecord, hq]
      refine ⟨?_, List.forall_mem_cons.mpr ⟨?_, fun j hj => ?_⟩, fun q hq => ?_, ?_⟩
      · rw [hframe, hone]; rfl
      · rw [hothers _ fun j hj => (hne j hj).symm, hone]; simp [sendRecord]
      · rw [hslots j hj, hsame _ (hne j hj)]
      · obtain ⟨hqk, hql⟩ := List.forall_mem_cons.mp hq
        rw [hothers q hql, hsame q hqk]
      · rw [List.filter_cons_of_pos (by simpa using h), List.map_cons]
        have hnow : (recheckPosition c f k s).now = s.now := by rw [hone]; rfl
        have hfirst : Sent s (recheckPosition c f k s) .positions none false
            (recheckNote c k (recheckedRecord f k (s.position (positionOf c k))).state s.now) := by rw [hone]; rfl
        refine sentAll_cons hfirst ?_
        rw [hnow] at hsent
        have hfilter : ∀ j ∈ l, (recheckPosition c f k s).position (positionOf c j) = s.position (positionOf c j) :=
          fun j hj => hsame _ (hne j hj)
        have hsteps : l.filter (fun j => decide ((recheckedRecord f j ((recheckPosition c f k s).position
            (positionOf c j))).state ≠ ((recheckPosition c f k s).position (positionOf c j)).state))
            = l.filter (fun j => decide ((recheckedRecord f j (s.position (positionOf c j))).state
              ≠ (s.position (positionOf c j)).state)) := List.filter_congr fun j hj => by rw [hfilter j hj]
        rw [hsteps] at hsent
        rwa [List.map_congr_left fun j hj => by rw [hfilter j (List.mem_of_mem_filter hj)]] at hsent

/-! ## LOAD_PROFILE -/

/-- R52, R137: the card after the re-check that a profile calls for. -/
def recheckedBy (c : Channel) (f : Profile) (s : State) : State :=
  forEach (List.finRange 6) (recheckPosition c f) (s.setChan c { s.chan c with profile := some f })

theorem recheckedBy_slots (c : Channel) (f : Profile) (s : State) :
    RecheckedSlots c f (List.finRange 6) (s.setChan c { s.chan c with profile := some f }) (recheckedBy c f s) :=
  recheckedSlots_forEach c f _ _ (List.nodup_finRange 6)

/-- R52, R136: what the profile's installation adds to the re-check. -/
theorem installProfile_eq (c : Channel) (f : Profile) (s : State) :
    installProfile c f s = ((recheckedBy c f s).setLink c { s.link c with
        counts := (s.link c).counts ++ [activeCount (recheckedBy c f s) c] }).setResolver c { s.resolver c with
      target := some 0, positions := some (ceilingFor f (activeCount (recheckedBy c f s) c)) } := by
  have hframe := (recheckedBy_slots c f s).frame
  change (sendCount c (recheckedBy c f s)).setResolver c { (sendCount c (recheckedBy c f s)).resolver c with
    target := some 0, positions := some (ceilingFor f (activeCount (sendCount c (recheckedBy c f s)) c)) } = _
  generalize recheckedBy c f s = u at hframe ⊢
  have hlink : u.link c = s.link c := by rw [hframe]; rfl
  have hresolver : u.resolver c = s.resolver c := by rw [hframe]; rfl
  rw [← hlink, ← hresolver]
  rfl

section
variable {a : Arguments}

theorem loadProfile_of_badArgument (h : 4 ≤ a.word1) : loadProfile a s = (s, ⟨.badArgument, 0, 0⟩) := by
  simp [loadProfile, index_of_le h]

theorem loadProfile_of_active (hc : a.word1 = c.val) (h : (s.chan c).state ≠ .off) :
    loadProfile a s = (s, ⟨.channelActive, 0, 0⟩) := by
  simp [loadProfile, hc, h]

theorem loadProfile_of_bad (hc : a.word1 = c.val) (h : (s.chan c).state = .off) {field : Nat}
    (hbad : checkProfile (readProfile s.mem c) = some field) :
    loadProfile a s = (s, ⟨.tableError, c.val, field⟩) := by
  simp [loadProfile, hc, h, hbad]

theorem loadProfile_of_good (hc : a.word1 = c.val) (h : (s.chan c).state = .off)
    (hgood : checkProfile (readProfile s.mem c) = none) :
    loadProfile a s = (installProfile c (readProfile s.mem c) s, ⟨.ok, 0, 0⟩) := by
  simp [loadProfile, hc, h, hgood]

end

/-- A slot's state word lies outside the profile drafts. -/
theorem readProfile_writeSlotState (k : SlotIx) (value : Nat) (s : State) (c : Channel) :
    readProfile (writeSlotState k value s).mem c = readProfile s.mem c := by
  have hk := k.isLt
  have hread : ∀ b n, 0x0500 ≤ b → readNum (writeSlotState k value s).mem b n = readNum s.mem b n := fun b n hb =>
    readNum_writeBytes_disjoint _ _ _ _ _ (.inr (by
      simp only [slotAddress, Config.slotBase, numBytes_length]
      omega))
  have hbase : ∀ x, 0x0500 ≤ Config.profileBase + 64 * c.val + x := fun x => by
    simp only [Config.profileBase]; omega
  simp only [readProfile, hread _ _ (hbase _), hread (Config.profileBase + 64 * c.val) 1 (hbase 0)]

theorem firstFailing_le {passes : Nat → Prop} {last n : Nat} (h : FirstFailing passes last (some n)) : n ≤ last := h.2.1

theorem checkProfile_field_le {p : Profile} {field : Nat} (h : checkProfile p = some field) : field ≤ 22 := by
  have hspec := checkProfile_spec p
  rw [h] at hspec
  exact firstFailing_le hspec

/-- R171: the ceiling's seven fields stand one after another. -/
theorem readProfile_eq_ofFn (m : Memory) (c : Channel) : (readProfile m c).ceiling
    = Vector.ofFn (fun k : Fin 7 => readNum m (0x0500 + 64 * c.val + 0x02 + 2 * k.val) 2) := by
  ext i hi
  rw [Vector.getElem_ofFn]
  interval_cases i <;> rfl

/-- Settles O20: the refusals in their order, and the profile installed with its re-check. -/
theorem loadProfileIsTaken : Obligations.LoadProfileIsTaken := by
  refine ⟨fun s k n w1 w2 w3 h => ⟨fun hbad => h.refusal rfl (loadProfile_of_badArgument hbad), fun c hc =>
    ⟨fun hst => ?active, fun field hst hfield => ?bad, fun hst hgood => ?good⟩⟩, fun m c => ?fields, checkProfile_spec⟩
  case fields => rw [← readProfile_eq_ofFn]; rfl
  case active => exact h.refusal rfl (loadProfile_of_active (a := ⟨w1, w2, w3⟩) hc hst)
  case bad =>
    have hfield' : checkProfile (readProfile (writeSlotState k 2 s).mem c) = some field := by
      rw [readProfile_writeSlotState, hfield]
    obtain ⟨t, ht, hanswered, -⟩ := h.refused (kind' := .loadProfile) rfl (Nat.lt_of_lt_of_le c.isLt (by decide))
      (Nat.lt_of_le_of_lt (checkProfile_field_le hfield) (by decide))
      (loadProfile_of_bad (a := ⟨w1, w2, w3⟩) (s := writeSlotState k 2 s) hc hst hfield')
    exact ⟨t, ht, hanswered⟩
  case good =>
    have hgood' : checkProfile (readProfile (writeSlotState k 2 s).mem c) = none := by
      rw [readProfile_writeSlotState, hgood]
    have hwork := loadProfile_of_good (a := ⟨w1, w2, w3⟩) (s := writeSlotState k 2 s) hc hst hgood'
    rw [readProfile_writeSlotState, installProfile_eq] at hwork
    obtain ⟨hframe, hslots, hothers, hsent⟩ := recheckedBy_slots c (readProfile s.mem c) (writeSlotState k 2 s)
    generalize recheckedBy c (readProfile s.mem c) (writeSlotState k 2 s) = u at hframe hslots hothers hsent hwork
    have hslots' : ∀ j, u.position (positionOf c j)
        = recheckedRecord (readProfile s.mem c) j (s.position (positionOf c j)) := fun j =>
      hslots j (List.mem_finRange j)
    have hposition : ∀ r x y q, (completeSlot k r ((u.setLink c x).setResolver c y)).position q = u.position q :=
      fun r x y q => by rw [completeSlot_position]; rfl
    have hcount : ∀ r x y, activeCount (completeSlot k r ((u.setLink c x).setResolver c y)) c = activeCount u c :=
      fun r x y => activeCount_congr fun j => by rw [hposition]
    refine ⟨_, congrArg Host.Outcome.next (h.visitFor_eq rfl hwork), h.answered ?handler (by simp) (by simp), ?frame,
      ?chan, fun j => ⟨?line, fun hsame => ?same, fun hchanged => ?changed⟩, ?sent, fun p hp => ?positions, ?resolver,
      ?link, fun d hd => ?others, completeSlot_written_slot ?mem⟩
    case handler => rw [hframe]; rfl
    case mem => rw [hframe]; rfl
    case frame => rw [completeSlot_frame, hframe]; rfl
    case chan => rw [completeSlot_chan, hframe]; exact look_put_same _ _ _
    case line =>
      rw [hposition, hslots', recheckedRecord_state]
      exact recheckedState_spec _ _ _
    case same =>
      rw [hposition, hslots'] at hsame ⊢
      exact recheckedRecord_of_same _ _ _ hsame
    case changed =>
      rw [hposition, hslots'] at hchanged ⊢
      exact recheckedRecord_of_changed _ _ _ hchanged
    case sent =>
      simp only [hposition, hslots']
      rw [SentAll, completeSlot_journal]
      exact hsent
    case positions =>
      rw [hposition]
      exact hothers p fun j _ e => hp (by rw [e, channelOf_positionOf])
    case resolver => rw [hcount, completeSlot_resolver]; exact look_put_same _ _ _
    case link => rw [hcount, completeSlot_link, State.setResolver_link]; exact look_put_same _ _ _
    case others =>
      rw [hframe]
      simp [State.chan, State.strike, State.resolver, State.monitor, State.link, writeSlotState, State.write,
        State.setMem, State.setChan, State.setLink, State.setResolver, hd]

end Sys2Proof.Machine


/-! Registers, words of common memory, output lines, sweeps and the answers of requests; the state after a reset; the
wrap of the time counter. -/

namespace Sys2Proof.Machine

variable {s t : State} {c : Channel} {k : SlotIx}

/-! ## The wrap (R77) -/

theorem prune_strike (c d : Channel) (s : State) : (prune c s).strike d
    = if d = c then { s.strike c with times := pruneTimes s.now (profileOf s c).strikeWindow (s.strike c).times }
      else s.strike d := by
  by_cases h : d = c
  · subst h; simp [prune]
  · simp [prune, h]

theorem prune_profileOf (c d : Channel) (s : State) : profileOf (prune c s) d = profileOf s d := rfl

theorem pruneAll_strike (s : State) (c : Channel) : (forEach allChannels prune s).strike c
    = { s.strike c with times := pruneTimes s.now (profileOf s c).strikeWindow (s.strike c).times } := by
  simp only [allChannels, forEach, List.foldl_cons, List.foldl_nil]
  fin_cases c <;> simp [prune_strike, prune_profileOf]

/-- R77: what the wrap leaves of a channel's strike list. -/
theorem wrapCounter_strike (s : State) (c : Channel) : (wrapCounter s).strike c
    = { s.strike c with times := pruneTimes 0 (profileOf s c).strikeWindow (s.strike c).times } :=
  pruneAll_strike { s with now := 0 } c

theorem wrapCounter_frame (s : State) : wrapCounter s = { s with now := 0, strikes := (wrapCounter s).strikes } := rfl

/-- Settles O6: by what pruning leaves of each list. -/
theorem wrapPrunesEveryStrikeList : Obligations.WrapPrunesEveryStrikeList := by
  intro s hrunning hnow
  refine ⟨?same, _, exec_timeCounterWrap_of_running hrunning hnow, wrapCounter_frame s, fun c p hp => ?pruned,
    fun c hp htimes => ?empty⟩
  case same =>
    rw [exec_timeCounterTick_of_running hrunning, exec_timeCounterWrap_of_running hrunning hnow,
      tick_of_now_eq_greatest hnow]
  case pruned => rw [wrapCounter_strike, profileOf_of_some hp]; rfl
  case empty =>
    rw [wrapCounter_strike, htimes, pruneTimes, List.filter_nil, ← htimes]

/-! ## The state after a reset -/

/-- R159: each of the three commands that bring the card out of reset. -/
theorem exec_leaves_reset {cmd : Instr} {pins : Pins} {powerOn : Bool}
    (h : (cmd = .powerOnReset false pins ∧ powerOn = true)
      ∨ (∃ v : Word, cmd = .controllerReset (.resetCtlWrite v) pins ∧ v.getLsbD 0 = true
        ∧ (s.phase = .initializing ∨ s.phase = .ready) ∧ powerOn = false)
      ∨ (cmd = .backplaneResetRelease pins ∧ s.phase = .held powerOn)) :
    exec cmd s = .next (leaveReset powerOn pins s) := by
  rcases h with ⟨rfl, rfl⟩ | ⟨v, rfl, hbit, hphase, rfl⟩ | ⟨rfl, hheld⟩
  · exact exec_powerOnReset_released pins s
  · exact exec_controllerReset_resetCtlWrite pins hbit hphase
  · exact exec_backplaneResetRelease_of_held pins hheld

/-- R160, R161: common memory as the card leaves reset. -/
theorem leaveReset_readByte (powerOn : Bool) (pins : Pins) (s : State) (a : Nat) :
    readByte (leaveReset powerOn pins s).mem a
      = if powerOn = true ∨ (0x2000 ≤ a ∧ a < 0x3000) then 0 else readByte s.mem a := by
  cases powerOn
  · exact (readByte_zeroRange s.mem 0x2000 0x1000 a).trans (by simp)
  · rfl

/-- Settles O4: block by block. -/
theorem blocksAndMemoryAfterAReset : Obligations.BlocksAndMemoryAfterAReset := by
  intro cmd pins s powerOn h
  exact ⟨_, exec_leaves_reset h, rfl, rfl, rfl, rfl, fun _ => look_replicate _ _, fun _ => look_replicate _ _, rfl, rfl,
    rfl, fun _ => look_replicate _ _, fun _ => look_replicate _ _, fun _ => look_replicate _ _, rfl,
    fun _ => look_ofFn _ _, fun _ => look_replicate _ _, rfl, rfl, rfl, rfl, rfl, rfl, rfl,
    fun _ => look_replicate _ _, rfl, leaveReset_readByte powerOn pins s⟩

/-! ## Registers and the release word -/

theorem running_iff (s : State) : running s = true ↔ s.phase = .initializing ∨ s.phase = .ready := by
  unfold running
  cases s.phase <;> simp

/-- Settles O9. -/
theorem registerWrites : Obligations.RegisterWrites := by
  intro v s
  refine ⟨fun hrunning => ⟨{ s with irqEnable := v.setWidth 4 }, if_pos hrunning, rfl, fun i hi => ?_, fun i => ?_⟩,
    fun hrunning => if_neg (by simp [hrunning]), rfl, rfl⟩
  · simp [hi]
  · have hread : registerRead { s with irqEnable := v.setWidth 4 } 2 = (v.setWidth 4).setWidth 16 := by
      rcases (running_iff s).mp hrunning with h | h <;> simp [registerRead, h]
    rw [hread]
    simp only [BitVec.getLsbD_setWidth]
    by_cases hi : i < 4
    · simp [hi, show i < 16 by omega]
    · simp [hi]

/-- R171: a number of `n + m` bytes is that of its low `n` bytes, and that of its high `m` bytes above them. -/
theorem readNum_add (mem : Memory) (n m : Nat) : ∀ a,
    readNum mem a (n + m) = readNum mem a n + 256 ^ n * readNum mem (a + n) m := by
  induction n with
  | zero => intro a; simp [readNum]
  | succ n ih =>
    intro a
    rw [show n + 1 + m = n + m + 1 by omega]
    simp only [readNum, ih (a + 1)]
    rw [show a + 1 + n = a + (n + 1) by omega, pow_succ]
    ring

theorem releaseWord_eq (m : Memory) : releaseWord m = readNum m 0x00A0 2 + 65536 * readNum m 0x00A2 2 :=
  readNum_add m 2 2 0x00A0

theorem exec_journalReleaseWrite (h : s.phase ≠ .unpowered) (w : ReleaseWrite) :
    exec (.journalReleaseWrite w) s
      = .next (s.write (releaseTarget w).1 (numBytes (releaseTarget w).2.1 (releaseTarget w).2.2)) := if_neg h

theorem journalPending_iff (s : State) : journalPending s = true ↔ s.journal.newest.toNat ≠ releaseWord s.mem := by
  simp [journalPending]

theorem word_toNat_mod (v : Word) : v.toNat % 256 ^ 2 = v.toNat := Nat.mod_eq_of_lt v.isLt

/-- Settles O10: whole, or half by half. -/
theorem releaseWordIsWritten : Obligations.ReleaseWordIsWritten := by
  intro s hphase
  refine ⟨fun v => ⟨_, exec_journalReleaseWrite hphase _, rfl, ?whole, ?pending, ?wholeBytes⟩,
    fun v => ⟨_, exec_journalReleaseWrite hphase _, rfl, ?low, ?lowBytes⟩,
    fun v => ⟨_, exec_journalReleaseWrite hphase _, rfl, ?high, ?highBytes⟩⟩
  case whole =>
    exact (readNum_writeBytes_same s.mem 0x00A0 4 v.toNat).trans (Nat.mod_eq_of_lt v.isLt)
  case pending =>
    rw [journalPending_iff]
    have hword : releaseWord (s.write 0x00A0 (numBytes 4 v.toNat)).mem = v.toNat :=
      (readNum_writeBytes_same s.mem 0x00A0 4 v.toNat).trans (Nat.mod_eq_of_lt v.isLt)
    show s.journal.newest.toNat ≠ releaseWord (s.write 0x00A0 (numBytes 4 v.toNat)).mem ↔ _
    rw [hword, ne_eq, BitVec.toNat_inj]
  case wholeBytes => exact (write_memoryBut s 0x00A0 (numBytes 4 v.toNat)).mono fun a h => by simpa using h
  case low =>
    show releaseWord (writeBytes s.mem 0x00A0 (numBytes 2 v.toNat)) = _
    rw [releaseWord_eq, readNum_writeBytes_same, readNum_writeBytes_disjoint _ _ _ _ _ (.inr (by simp)),
      word_toNat_mod]
  case lowBytes => exact (write_memoryBut s 0x00A0 (numBytes 2 v.toNat)).mono fun a h => by simpa using h
  case high =>
    show releaseWord (writeBytes s.mem 0x00A2 (numBytes 2 v.toNat)) = _
    rw [releaseWord_eq, readNum_writeBytes_same, readNum_writeBytes_disjoint _ _ _ _ _ (.inl (by simp)),
      word_toNat_mod]
  case highBytes => exact (write_memoryBut s 0x00A2 (numBytes 2 v.toNat)).mono fun a h => by simpa using h

/-! ## The STATUS register and the IRQ line -/

theorem reqDonePending_iff (s : State) : reqDonePending s = true ↔ ∃ k, slotWord s.mem k 0 = 3 := by
  simp [reqDonePending]

theorem mem_allChannels (c : Channel) : c ∈ allChannels := by
  fin_cases c <;> simp [allChannels]

theorem confirmPending_iff (s : State) : confirmPending s = true ↔ ∃ c, (s.strike c).pending = true := by
  simp [confirmPending, mem_allChannels]

theorem capturePending_iff (s : State) : capturePending s = true ↔ ∃ b, (s.buffer b).state = .ready := by
  simp [capturePending]

/-- R158: the four sources, bit by bit. -/
theorem pendingSources_getLsbD (s : State) (i : Nat) : (pendingSources s).getLsbD i
    = [reqDonePending s, journalPending s, confirmPending s, capturePending s].getD i false := by
  simp only [pendingSources, BitVec.getLsbD_append, BitVec.getLsbD_ofBool]
  match i with
  | 0 | 1 | 2 | 3 => simp
  | n + 4 => simp

/-- R157: the register of a card that runs, bit by bit. -/
theorem statusRegister_getLsbD (h : running s = true) (i : Nat) : (statusRegister s).getLsbD i
    = [decide (s.phase = .ready), s.handler.ack, s.handler.sweep.isSome, reqDonePending s, journalPending s,
        confirmPending s, capturePending s, s.evaluator.configured, s.scanner.interlockClosed].getD i false := by
  have hrun : statusRegister s = 0#7 ++ BitVec.ofBool s.scanner.interlockClosed ++ BitVec.ofBool s.evaluator.configured
      ++ pendingSources s ++ BitVec.ofBool s.handler.sweep.isSome ++ BitVec.ofBool s.handler.ack
      ++ BitVec.ofBool (s.phase == .ready) := by
    rcases (running_iff s).mp h with hp | hp <;> simp [statusRegister, hp]
  rw [hrun]
  simp only [BitVec.getLsbD_append, BitVec.getLsbD_ofBool, pendingSources_getLsbD]
  match i with
  | 0 => simp [Bool.beq_eq_decide_eq]
  | 1 | 2 | 3 | 4 | 5 | 6 | 7 | 8 => simp
  | n + 9 => simp

/-- A word that is not 0 has a bit set. -/
theorem ne_zero_iff_exists_getLsbD {w : Nat} (x : BitVec w) : x ≠ 0 ↔ ∃ i, i < w ∧ x.getLsbD i = true := by
  constructor
  · intro h
    by_contra hnone
    exact h (BitVec.eq_of_getLsbD_eq fun i hi => by simpa using fun hbit => hnone ⟨i, hi, hbit⟩)
  · rintro ⟨i, _, hi⟩ rfl
    simp at hi

/-- Settles O12: bit by bit. -/
theorem statusRegisterAndIrqLine : Obligations.StatusRegisterAndIrqLine := by
  intro s
  refine ⟨fun b hb => ⟨by simp [statusRegister, hb], by simp [irqLine, hb]⟩, fun hinit => by simp [irqLine, hinit],
    fun hrunning => ?bits, fun hready => ?line⟩
  case bits =>
    have hbit := statusRegister_getLsbD hrunning
    refine ⟨?_, hbit 1, hbit 2, ?_, ?_, ?_, ?_, hbit 7, hbit 8, fun i hi => ?_⟩
    · rw [hbit]; exact decide_eq_true_iff
    · rw [hbit, ← reqDonePending_iff]; rfl
    · rw [hbit, ← journalPending_iff]; rfl
    · rw [hbit, ← confirmPending_iff]; rfl
    · rw [hbit, ← capturePending_iff]; rfl
    · rw [hbit, List.getD_eq_default _ _ hi]
  case line =>
    have hbit := statusRegister_getLsbD (s := s) ((running_iff s).mpr (.inr hready))
    have hline : irqLine s = true ↔ pendingSources s &&& s.irqEnable ≠ 0 := by simp [irqLine, hready]
    rw [hline, ne_zero_iff_exists_getLsbD]
    refine exists_congr fun i => and_congr_right fun hi => ?_
    rw [BitVec.getLsbD_and, Bool.and_eq_true, pendingSources_getLsbD, hbit]
    interval_cases i <;> rfl

/-! ## Output lines -/

/-- Settles O13. -/
theorem outputLines : Obligations.OutputLines := by
  intro s
  refine ⟨?relay, fun hphase => ?lines, fun hrest hphase => ?rest, withoutSupply s, exec_supplyLoss s, rfl, rfl, rfl,
    fun c => ?off, rfl⟩
  case relay =>
    unfold relayEnergized
    cases hphase : s.phase <;> simp [mem_allChannels, and_assoc]
  case lines =>
    refine ⟨fun c => ⟨?_, ?_⟩, fun p => ?_⟩
    · cases h : s.phase <;> simp_all [muteLine]
    · cases h : s.phase <;> simp_all [driveMillivolts]
    · cases h : s.phase <;> simp_all [biasLine]
  case rest =>
    rcases hphase with ⟨b, hphase⟩ | hphase
    all_goals
      obtain ⟨-, -, hchans, hpositions⟩ := hrest (by simp [hphase])
      exact ⟨fun c => by simp [muteLine, driveMillivolts, hphase, hchans c],
        fun p => by simp [biasLine, hphase, hpositions p], by simp [relayEnergized, hphase], by simp [irqLine, hphase]⟩
  case off =>
    have hchan : (withoutSupply s).chan c = ChannelController.reset := look_replicate _ _
    rw [hchan]
    exact ⟨rfl, rfl⟩

/-! ## Sweeps -/

theorem visiting_of {n : Nat} (hsweep : s.handler.sweep = some ⟨k.val, n⟩) (hload : s.evaluator.load = none) :
    visiting s = some k := by
  simp [visiting, hsweep, hload]

/-- Settles O14: a visit by what stands in the slot, and the end of a sweep. -/
theorem slotsAreVisitedAndSweepsEnd : Obligations.SlotsAreVisitedAndSweepsEnd := by
  intro s
  refine ⟨fun k n hsweep hload hfree => ?passed, fun k n kind w1 w2 w3 h => ?taken, fun hload => ?held,
    fun n hsweep => ?ended⟩
  case passed =>
    show execSlotVisit s = _
    simp [execSlotVisit, visiting_of hsweep hload, posted, hfree, moveOn, hsweep, State.setHandler]
  case taken =>
    rw [← h.kind]
    exact execSlotVisit_of_posted (visiting_of h.sweeping h.unloaded) (by simp [posted, h.posted])
  case held =>
    have hnone : visiting s = none := by
      obtain ⟨l, hl⟩ := Option.isSome_iff_exists.mp hload
      unfold visiting
      rw [hl]
      cases s.handler.sweep <;> rfl
    show execSlotVisit s = _
    rw [execSlotVisit, hnone]
  case ended =>
    show execSweepEnd s = _
    simp [execSweepEnd, hsweep, endSweep, State.setHandler]

/-! ## The answers of requests (R152, R153) -/

/-- What a request's work answers: a refusal changes nothing, and only TABLE_ERROR has a detail. -/
structure Replies (s : State) (x : State × Reply) : Prop where
  refused : x.2.code ≠ .ok → x.1 = s
  plain : x.2.code ≠ .tableError → x.2.detail1 = 0 ∧ x.2.detail2 = 0
  small : x.2.detail1 < 65536 ∧ x.2.detail2 < 65536

theorem replies_ok (s t : State) : Replies s (t, ⟨.ok, 0, 0⟩) := ⟨by simp, by simp, by simp⟩

theorem replies_refusal (s : State) (code : ResultCode) : Replies s (s, ⟨code, 0, 0⟩) := ⟨by simp, by simp, by simp⟩

theorem replies_tableError (s : State) {d1 d2 : Nat} (h1 : d1 < 65536) (h2 : d2 < 65536) :
    Replies s (s, ⟨.tableError, d1, d2⟩) := ⟨by simp, by simp, h1, h2⟩

theorem replies_loadProfile (a : Arguments) (s : State) : Replies s (loadProfile a s) := by
  unfold loadProfile
  split
  · exact replies_refusal s _
  · simp only
    split
    · exact replies_refusal s _
    · split
      · exact replies_tableError s (Nat.lt_of_lt_of_le (Fin.isLt _) (by decide))
          (Nat.lt_of_le_of_lt (checkProfile_field_le ‹_›) (by decide))
      · exact replies_ok s _

theorem replies_captureRequest (s : State) (x : BufferIx ⊕ ResultCode) (f : BufferIx → State) :
    Replies s (match x with | .inr code => (s, ⟨code, 0, 0⟩) | .inl b => (f b, ⟨.ok, 0, 0⟩)) := by
  cases x
  · exact replies_ok s _
  · exact replies_refusal s _

/-- R153: every request other than LOAD_CONDITIONS. -/
theorem replies_workOf (kind : Option RequestKind) (a : Arguments) (s : State) : Replies s (workOf kind a s) := by
  cases kind with
  | none => exact replies_refusal s _
  | some kind =>
    cases kind with
    | loadConditions => exact replies_refusal s _
    | loadProfile => exact replies_loadProfile a s
    | channelOn =>
      show Replies s (channelOn a s)
      unfold channelOn
      split
      · exact replies_refusal s _
      split
      · exact replies_refusal s _
      split
      · exact replies_refusal s _
      · exact replies_ok s _
    | channelOff =>
      show Replies s (channelOff a s)
      unfold channelOff
      split
      · exact replies_refusal s _
      split
      · exact replies_ok s _
      · exact replies_refusal s _
      all_goals exact replies_ok s _
    | setTarget =>
      show Replies s (setTarget a s)
      unfold setTarget
      split
      · exact replies_refusal s _
      split
      · exact replies_refusal s _
      split
      · exact replies_refusal s _
      · exact replies_ok s _
    | confirmRestrike =>
      show Replies s (confirmRestrike a s)
      unfold confirmRestrike
      split
      · exact replies_refusal s _
      split
      · exact replies_refusal s _
      split
      · exact replies_ok s _
      · exact replies_refusal s _
    | releaseLockout =>
      show Replies s (releaseLockout a s)
      unfold releaseLockout
      split
      · exact replies_refusal s _
      split
      · exact replies_refusal s _
      split
      · exact replies_refusal s _
      · exact replies_ok s _
    | clearCondition =>
      show Replies s (clearCondition a s)
      unfold clearCondition
      split
      · exact replies_refusal s _
      simp only
      split
      · split
        · exact replies_ok s _
        · exact replies_refusal s _
      all_goals exact replies_refusal s _
    | enablePosition =>
      show Replies s (enablePosition a s)
      unfold enablePosition
      split
      · exact replies_refusal s _
      split
      · exact replies_refusal s _
      · exact replies_ok s _
    | disablePosition =>
      show Replies s (disablePosition a s)
      unfold disablePosition
      split
      · exact replies_refusal s _
      split
      · exact replies_ok s _
      · exact replies_ok s _
      all_goals exact replies_refusal s _
    | holdCapture =>
      show Replies s (holdCapture a s)
      unfold holdCapture
      split
      · exact replies_refusal s _
      split
      all_goals exact replies_ok s _
    | releaseCapture =>
      show Replies s (releaseCapture a s)
      unfold releaseCapture
      split
      · exact replies_refusal s _
      · exact replies_ok s _

theorem workOf_handler (kind : Option RequestKind) (a : Arguments) (s : State) :
    (workOf kind a s).1.handler = s.handler := by
  exact ((sameBut_workOf kind a (List.Subset.refl _)).mpr (.refl workParts s)) .handler (by simp [workParts])

theorem execRequest_of_posted (hv : visiting s = some k) (hp : posted s k = true)
    (hkind : slotKind s k ≠ some .loadConditions) :
    exec (requestCommand (slotKind s k)) s = .next (serve k (workOf (slotKind s k)) s) := by
  rw [← execSlotVisit_of_posted hv hp]
  unfold execSlotVisit
  simp only [hv, hp, if_true]

theorem kindOf_ne_loadConditions {kind : Nat} (h : kind ≠ 1) : kindOf kind ≠ some .loadConditions := by
  unfold kindOf
  split <;> simp_all

theorem kindOf_eq_none {kind : Nat} (h : kind = 0 ∨ 12 < kind) : kindOf kind = none := by
  unfold kindOf
  split
  all_goals first | rfl | omega

/-- Settles O15: every request's work answers as R153 says, and the slot is completed with the answer. -/
theorem requestsAreAnsweredInTheirSlot : Obligations.RequestsAreAnsweredInTheirSlot := by
  intro s k n kind w1 w2 w3 h hkind
  have hslot : slotKind s k = kindOf kind := by rw [slotKind, h.kind]
  have hexec := execRequest_of_posted (visiting_of h.sweeping h.unloaded) (by simp [posted, h.posted])
    (hslot ▸ kindOf_ne_loadConditions hkind)
  rw [hslot] at hexec
  obtain ⟨hrefused, hplain, h1, h2⟩ := replies_workOf (kindOf kind) (argumentsOf s.mem k) (writeSlotState k 2 s)
  refine ⟨_, _, hexec, serve_answered k _ s n h.sweeping (workOf_handler _ _ _) h1 h2, hplain, fun hcode => ?refused,
    fun hnone => ?badKind⟩
  case refused =>
    have hserve : serve k (workOf (kindOf kind)) s = completeSlot k
        (workOf (kindOf kind) (argumentsOf s.mem k) (writeSlotState k 2 s)).2 (writeSlotState k 2 s) := by
      rw [serve, hrefused hcode]
    rw [hserve]
    exact ⟨by rw [completeSlot_frame]; rfl, completeSlot_written_slot rfl⟩
  case badKind =>
    rw [kindOf_eq_none hnone] at hexec ⊢
    exact ⟨hexec, rfl⟩

end Sys2Proof.Machine


/-! Sides and moves of a condition entry (R22 to R28), the arc lines, the interlock loop and the frame marks (R6 to R8,
R11, R12, R16 to R18). -/

namespace Sys2Proof.Machine

variable {s t : State} {c : Channel}

/-! ## Sides (R22 to R24) -/

section
variable {sc : Scanner} {f : ConditionFields} {p : Point} {v : Nat}

theorem compareOf_eq_outside_iff (n : Nat) : compareOf n = some .outside ↔ n = 3 := by
  match n with
  | 0 | 1 | 2 | 3 | 4 | 5 => decide
  | n + 6 => simp [compareOf]

theorem compareOf_eq_ratioAbove_iff (n : Nat) : compareOf n = some .ratioAbove ↔ n = 4 := by
  match n with
  | 0 | 1 | 2 | 3 | 4 | 5 => decide
  | n + 6 => simp [compareOf]

theorem compareOf_eq_stepAbove_iff (n : Nat) : compareOf n = some .stepAbove ↔ n = 5 := by
  match n with
  | 0 | 1 | 2 | 3 | 4 | 5 => decide
  | n + 6 => simp [compareOf]

theorem sideOf_of_outside (h : compareOf f.compare = some .outside) :
    sideOf f v = if v < f.level1 ∨ f.level2 < v then .set
      else if f.level1 + f.band ≤ v ∧ v + f.band ≤ f.level2 ∧ v ≠ f.level1 ∧ v ≠ f.level2 then .clear
      else .neither := by
  simp [sideOf, h]

theorem sideOf_outside_eq_set_iff (h : compareOf f.compare = some .outside) :
    sideOf f v = .set ↔ v < f.level1 ∨ f.level2 < v := by
  rw [sideOf_of_outside h]
  split_ifs <;> simp_all

/-- R22: the clear side, for a window wider than its two bands. -/
theorem sideOf_outside_eq_clear_iff (h : compareOf f.compare = some .outside)
    (_hband : 2 * f.band < f.level2 - f.level1) :
    sideOf f v = .clear ↔ f.level1 + f.band ≤ v ∧ v ≤ f.level2 - f.band ∧ v ≠ f.level1 ∧ v ≠ f.level2 := by
  rw [sideOf_of_outside h]
  split_ifs <;> simp <;> omega

/-- R23, R24: RATIO_ABOVE and STEP_ABOVE have the sides of ABOVE. -/
theorem sideOf_of_ratio_or_step (h : compareOf f.compare = some .ratioAbove ∨ compareOf f.compare = some .stepAbove) :
    sideOf f v = if f.level1 < v then .set else if v < f.level2 then .clear else .neither := by
  rcases h with h | h <;> simp [sideOf, h]

theorem sideOf_ratio_or_step_iff (h : compareOf f.compare = some .ratioAbove ∨ compareOf f.compare = some .stepAbove)
    (hlevels : f.level2 ≤ f.level1) :
    (sideOf f v = .set ↔ f.level1 < v) ∧ (sideOf f v = .clear ↔ v < f.level2) := by
  rw [sideOf_of_ratio_or_step h]
  split_ifs <;> simp <;> omega

theorem latestOf_of_lt (sc : Scanner) {point : Nat} (h : point < 96) : latestOf sc point = look sc.latest ⟨point, h⟩ := by
  simp [latestOf, index, h]

end

/-- Settles O32: the three compares, by the checks that their fields have passed. -/
theorem outsideRatioAndStepSides : Obligations.OutsideRatioAndStepSides := by
  intro sc f p
  refine ⟨fun h hcheck henable => ?outside, fun h hcheck henable => ?ratio, fun h hcheck henable => ?step⟩
  case outside =>
    have hband : 2 * f.band < f.level2 - f.level1 :=
      (fieldPasses_of_checkCondition_eq_none henable hcheck (n := 7) (by simp) (by simp)).1
        ((compareOf_eq_outside_iff _).mp h)
    exact ⟨by simp [quantity, h], sideOf_outside_eq_set_iff h, sideOf_outside_eq_clear_iff h hband⟩
  case ratio =>
    have hcode := (compareOf_eq_ratioAbove_iff _).mp h
    have hpoint : f.pointB ≤ 95 :=
      fieldPasses_of_checkCondition_eq_none henable hcheck (n := 4) (by simp) (by simp) hcode
    have hlevels : f.level2 ≤ f.level1 :=
      (fieldPasses_of_checkCondition_eq_none henable hcheck (n := 6) (by simp) (by simp)).2.1 (.inr (.inl hcode))
    have hquantity : quantity sc f p
        = ratio (look sc.latest p) (look sc.latest ⟨f.pointB, Nat.lt_succ_of_le hpoint⟩) f.band := by
      simp [quantity, h, latestOf_of_lt sc (Nat.lt_succ_of_le hpoint)]
    refine ⟨⟨f.pointB, Nat.lt_succ_of_le hpoint⟩, rfl, fun hlow => ?_, fun hhigh => ?_,
      sideOf_ratio_or_step_iff (.inl h) hlevels⟩
    · rw [hquantity, ratio, if_neg (Nat.not_le.mpr hlow)]
    · rw [hquantity, ratio, if_pos hhigh]
  case step =>
    have hlevels : f.level2 ≤ f.level1 :=
      (fieldPasses_of_checkCondition_eq_none henable hcheck (n := 6) (by simp) (by simp)).2.1
        (.inr (.inr ((compareOf_eq_stepAbove_iff _).mp h)))
    have hquantity : quantity sc f p = look sc.latest p - look sc.previous p := by simp [quantity, h]
    refine ⟨fun hrise => ?_, fun hfall => ?_, sideOf_ratio_or_step_iff (.inr h) hlevels⟩
    · rw [hquantity]; omega
    · rw [hquantity]; omega

/-! ## Moves (R25 to R28) -/

section
variable {e : LiveEntry} {side : Side}

theorem EntryLaw.enable_eq_one (h : EntryLaw e) (hst : e.state ≠ .disabled) : e.fields.enable = 1 := by
  by_contra hne
  exact hst (h.enabled.mpr hne)

theorem EntryLaw.one_le_setCount (h : EntryLaw e) (hst : e.state ≠ .disabled) : 1 ≤ e.fields.setCount :=
  (fieldPasses_of_checkCondition_eq_none (h.enable_eq_one hst) h.checked (n := 8) (by simp) (by simp)).1

theorem EntryLaw.one_le_clearCount (h : EntryLaw e) (hst : e.state ≠ .disabled) : 1 ≤ e.fields.clearCount :=
  (fieldPasses_of_checkCondition_eq_none (h.enable_eq_one hst) h.checked (n := 9) (by simp) (by simp)).1

theorem EntryLaw.clearSeen_eq_false (h : EntryLaw e) (hst : e.state ≠ .active ∨ e.fields.latch ≠ 1) :
    e.clearSeen = false := by
  rw [← Bool.not_eq_true]
  intro hseen
  obtain ⟨hactive, hlatch⟩ := h.marked hseen
  exact hst.elim (· hactive) (· hlatch)

/-- R25 to R28: an enabled entry in another state, its count that of the state. -/
theorem EntryLaw.at (h : EntryLaw e) (hst : e.state ≠ .disabled) {st : EntryState} {count : Nat} (hout : st ≠ .disabled)
    (hzero : st ≠ .arming → st ≠ .clearing → count = 0)
    (harming : st = .arming → 1 ≤ count ∧ count < e.fields.setCount)
    (hclearing : st = .clearing → 1 ≤ count ∧ count < e.fields.clearCount) : EntryLaw (e.at st count) where
  enabled := ⟨fun k => absurd k hout, fun k => absurd (h.enable_eq_one hst) k⟩
  checked := h.checked
  marked := fun k => by cases k
  uncounted := hzero
  arming := harming
  clearing := hclearing

theorem EntryLaw.mark (h : EntryLaw e) (hactive : e.state = .active) (seen : Bool) (hlatch : seen = true → e.fields.latch = 1) :
    EntryLaw ⟨e.fields, .active, e.count, seen⟩ where
  enabled := hactive ▸ h.enabled
  checked := h.checked
  marked := fun k => ⟨rfl, hlatch k⟩
  uncounted := hactive ▸ h.uncounted
  arming := by simp
  clearing := by simp

/-- An active entry with its mark unset is the entry, where it has none. -/
theorem LiveEntry.unmarked (hactive : e.state = .active) (h : e.clearSeen = false) :
    (⟨e.fields, .active, e.count, false⟩ : LiveEntry) = e := by
  rw [← h, ← hactive]

theorem LiveEntry.countUp_of_le {sofar limit : Nat} {counting full : EntryState} {claim : Claim}
    (h : limit ≤ sofar + 1) : e.countUp sofar limit counting full claim = (e.at full 0, claim) := if_pos h

theorem LiveEntry.countUp_of_lt {sofar limit : Nat} {counting full : EntryState} {claim : Claim}
    (h : sofar + 1 < limit) : e.countUp sofar limit counting full claim = (e.at counting (sofar + 1), .unchanged) :=
  if_neg (Nat.not_le.mpr h)

/-- What a move does: the entry after it, and what it claims. -/
structure Moved (e e' : LiveEntry) (claim : Claim) : Prop where
  fields : e'.fields = e.fields
  law : EntryLaw e'
  asserted : claim = .asserted ↔ e.inForce = false ∧ e'.inForce = true
  withdrawn : claim = .withdrawn ↔ e.inForce = true ∧ e'.inForce = false

theorem moved_unchanged {e' : LiveEntry} (hfields : e'.fields = e.fields) (hlaw : EntryLaw e')
    (hforce : e'.inForce = e.inForce) : Moved e e' .unchanged :=
  ⟨hfields, hlaw, by simp [hforce], by simp [hforce]⟩

theorem moved_asserted {e' : LiveEntry} (hfields : e'.fields = e.fields) (hlaw : EntryLaw e')
    (hout : e.inForce = false) (hin : e'.inForce = true) : Moved e e' .asserted :=
  ⟨hfields, hlaw, by simp [hout, hin], by simp [hout]⟩

theorem moved_withdrawn {e' : LiveEntry} (hfields : e'.fields = e.fields) (hlaw : EntryLaw e')
    (hin : e.inForce = true) (hout : e'.inForce = false) : Moved e e' .withdrawn :=
  ⟨hfields, hlaw, by simp [hout, hin], by simp [hout, hin]⟩

theorem LiveEntry.inForce_at (e : LiveEntry) (st : EntryState) (count : Nat) :
    (e.at st count).inForce = (st == .active || st == .clearing) := rfl

/-- R25: towards ACTIVE. -/
theorem moved_countUp_set (h : EntryLaw e) (hst : e.state ≠ .disabled) (hforce : e.inForce = false) (sofar : Nat) :
    Moved e (e.countUp sofar e.fields.setCount .arming .active .asserted).1
      (e.countUp sofar e.fields.setCount .arming .active .asserted).2 := by
  by_cases hfull : e.fields.setCount ≤ sofar + 1
  · rw [LiveEntry.countUp_of_le hfull]
    exact moved_asserted rfl (h.at hst (by simp) (by simp) (by simp) (by simp)) hforce rfl
  · rw [LiveEntry.countUp_of_lt (Nat.not_le.mp hfull)]
    refine moved_unchanged rfl (h.at hst (by simp) (by simp) (fun _ => ⟨by omega, by omega⟩) (by simp)) ?_
    rw [hforce]; rfl

/-- R26, R28: towards NORMAL. -/
theorem moved_countUp_clear (h : EntryLaw e) (hst : e.state ≠ .disabled) (hforce : e.inForce = true) (sofar : Nat) :
    Moved e (e.countUp sofar e.fields.clearCount .clearing .normal .withdrawn).1
      (e.countUp sofar e.fields.clearCount .clearing .normal .withdrawn).2 := by
  by_cases hfull : e.fields.clearCount ≤ sofar + 1
  · rw [LiveEntry.countUp_of_le hfull]
    exact moved_withdrawn rfl (h.at hst (by simp) (by simp) (by simp) (by simp)) hforce rfl
  · rw [LiveEntry.countUp_of_lt (Nat.not_le.mp hfull)]
    refine moved_unchanged rfl (h.at hst (by simp) (by simp) (by simp) (fun _ => ⟨by omega, by omega⟩)) ?_
    rw [hforce]; rfl

/-- R25 to R28: every arrival moves an entry within its law, and claims exactly what its coming into force or going out
of it calls for. -/
theorem moved_take (h : EntryLaw e) (side : Side) : Moved e (e.take side).1 (e.take side).2 := by
  cases hst : e.state with
  | disabled => rw [show e.take side = (e, .unchanged) by simp [LiveEntry.take, hst]]; exact moved_unchanged rfl h rfl
  | normal =>
    have hforce : e.inForce = false := by simp [LiveEntry.inForce, hst]
    cases side with
    | set =>
      rw [show e.take .set = e.countUp 0 e.fields.setCount .arming .active .asserted by simp [LiveEntry.take, hst]]
      exact moved_countUp_set h (by simp [hst]) hforce 0
    | clear | neither =>
      simp only [LiveEntry.take, hst]
      exact moved_unchanged rfl h rfl
  | arming =>
    have hforce : e.inForce = false := by simp [LiveEntry.inForce, hst]
    cases side with
    | set =>
      rw [show e.take .set = e.countUp e.count e.fields.setCount .arming .active .asserted by
        simp [LiveEntry.take, hst]]
      exact moved_countUp_set h (by simp [hst]) hforce e.count
    | clear | neither =>
      simp only [LiveEntry.take, hst]
      exact moved_unchanged rfl (h.at (by simp [hst]) (by simp) (by simp) (by simp) (by simp)) (by rw [hforce]; rfl)
  | active =>
    have hforce : e.inForce = true := by simp [LiveEntry.inForce, hst]
    cases side with
    | set =>
      simp only [LiveEntry.take, hst]
      exact moved_unchanged rfl (h.mark hst false (by simp)) (by rw [hforce]; rfl)
    | clear =>
      by_cases hlatch : e.fields.latch = 1
      · simp only [LiveEntry.take, hst, hlatch, if_true]
        exact moved_unchanged rfl (h.mark hst true (fun _ => hlatch)) (by rw [hforce]; rfl)
      · rw [show e.take .clear = e.countUp 0 e.fields.clearCount .clearing .normal .withdrawn by
          simp [LiveEntry.take, hst, hlatch]]
        exact moved_countUp_clear h (by simp [hst]) hforce 0
    | neither =>
      simp only [LiveEntry.take, hst]
      exact moved_unchanged rfl h rfl
  | clearing =>
    have hforce : e.inForce = true := by simp [LiveEntry.inForce, hst]
    cases side with
    | set =>
      simp only [LiveEntry.take, hst]
      exact moved_unchanged rfl (h.at (by simp [hst]) (by simp) (by simp) (by simp) (by simp)) (by rw [hforce]; rfl)
    | clear =>
      rw [show e.take .clear = e.countUp e.count e.fields.clearCount .clearing .normal .withdrawn by
        simp [LiveEntry.take, hst]]
      exact moved_countUp_clear h (by simp [hst]) hforce e.count
    | neither =>
      simp only [LiveEntry.take, hst]
      exact moved_unchanged rfl h rfl

end

/-- Settles O33: the moves, state by state. -/
theorem entriesMoveBySide : Obligations.EntriesMoveBySide := by
  intro e h
  refine ⟨fun side => ⟨(moved_take h side).fields, (moved_take h side).law⟩,
    fun side => ⟨(moved_take h side).asserted, (moved_take h side).withdrawn⟩, fun hst side => ?disabled,
    fun hst => ?normal, fun hst => ?arming, fun hst hlatch => ?unlatched, fun hst hlatch => ?latched,
    fun hst => ?clearing⟩
  case disabled => simp [LiveEntry.take, hst]
  case normal =>
    have hone := h.one_le_setCount (by simp [hst])
    refine ⟨by simp [LiveEntry.take, hst], by simp [LiveEntry.take, hst], fun hcount => ?_, fun hcount => ?_⟩
    · simp [LiveEntry.take, hst, LiveEntry.countUp_of_le (show e.fields.setCount ≤ 0 + 1 by omega), LiveEntry.at]
    · simp [LiveEntry.take, hst, LiveEntry.countUp_of_lt (show 0 + 1 < e.fields.setCount by omega), LiveEntry.at]
  case arming =>
    have hcounting := h.arming hst
    refine ⟨by simp [LiveEntry.take, hst, LiveEntry.at], by simp [LiveEntry.take, hst, LiveEntry.at], fun hcount => ?_,
      fun hcount => ?_⟩
    · simp [LiveEntry.take, hst, LiveEntry.countUp_of_le (show e.fields.setCount ≤ e.count + 1 by omega), LiveEntry.at]
    · simp [LiveEntry.take, hst, LiveEntry.countUp_of_lt (show e.count + 1 < e.fields.setCount by omega), LiveEntry.at]
  case unlatched =>
    have hone := h.one_le_clearCount (by simp [hst])
    have hunmarked := LiveEntry.unmarked hst (h.clearSeen_eq_false (.inr (by omega)))
    refine ⟨by simp only [LiveEntry.take, hst]; rw [hunmarked], by simp [LiveEntry.take, hst], fun hcount => ?_,
      fun hcount => ?_⟩
    · simp [LiveEntry.take, hst, hlatch, LiveEntry.countUp_of_le (show e.fields.clearCount ≤ 0 + 1 by omega),
        LiveEntry.at]
    · simp [LiveEntry.take, hst, hlatch, LiveEntry.countUp_of_lt (show 0 + 1 < e.fields.clearCount by omega),
        LiveEntry.at]
  case latched => simp [LiveEntry.take, hst, hlatch]
  case clearing =>
    have hcounting := h.clearing hst
    refine ⟨by simp [LiveEntry.take, hst, LiveEntry.at], by simp [LiveEntry.take, hst], fun hcount => ?_,
      fun hcount => ?_⟩
    · simp [LiveEntry.take, hst, LiveEntry.countUp_of_le (show e.fields.clearCount ≤ e.count + 1 by omega),
        LiveEntry.at]
    · simp [LiveEntry.take, hst, LiveEntry.countUp_of_lt (show e.count + 1 < e.fields.clearCount by omega),
        LiveEntry.at]

/-! ## Deliveries to several channels -/

theorem allChannels_nodup : allChannels.Nodup := by decide

/-- A delivery to each channel of a list, each link changed by itself. -/
theorem forEach_setLink {f : Channel → State → State} (change : Channel → ChannelLinks → ChannelLinks)
    {J : JournalWriter} (hf : ∀ d t, t.journal = J → f d t = t.setLink d (change d (t.link d))) :
    ∀ (l : List Channel) (s : State), l.Nodup → s.journal = J →
      forEach l f s = { s with links := (forEach l f s).links }
      ∧ ∀ d, (forEach l f s).link d = if d ∈ l then change d (s.link d) else s.link d
  | [], s, _, _ => ⟨rfl, fun d => by simp [forEach_nil]⟩
  | c :: l, s, hl, hJ => by
    obtain ⟨hc, hl⟩ := List.nodup_cons.mp hl
    rw [forEach_cons, hf c s hJ]
    obtain ⟨hframe, hlink⟩ := forEach_setLink change hf l (s.setLink c (change c (s.link c))) hl hJ
    refine ⟨hframe, fun d => ?_⟩
    rw [hlink d]
    by_cases hd : d = c
    · subst hd; simp [hc]
    · simp [hd]

theorem forEach_deliverScanner (e : ScannerEvent) (l : List Channel) (hl : l.Nodup) (s : State) :
    forEach l (fun c => deliverScanner c e) s = { s with links := (forEach l (fun c => deliverScanner c e) s).links }
    ∧ ∀ d, (forEach l (fun c => deliverScanner c e) s).link d = if d ∈ l then
        { s.link d with fromScanner := (s.link d).fromScanner ++ [⟨e, s.journal.sent⟩] } else s.link d :=
  forEach_setLink (fun _ x => { x with fromScanner := x.fromScanner ++ [⟨e, s.journal.sent⟩] }) (J := s.journal)
    (fun d t ht => by rw [deliverScanner, ht]) l s hl rfl

/-! ## Arc lines (R6 to R8) -/

theorem mem_armedScope (st : SiteSettings) (l : ArcLine) (c : Channel) :
    c ∈ armedScope st l ↔ covers st l c = true := by
  simp [armedScope, mem_allChannels]

theorem armedScope_nodup (st : SiteSettings) (l : ArcLine) : (armedScope st l).Nodup := allChannels_nodup.filter _

/-- R7, R8: what a line's change delivers. -/
theorem deliverArmed_spec (l : ArcLine) (e : ScannerEvent) (asserted : Bool) (s : State) :
    let t := forEach (armedScope s.evaluator.settings l) (fun c => deliverScanner c e) (setArc l asserted s)
    t = { s with scanner := t.scanner, links := t.links }
    ∧ t.scanner = { s.scanner with arcAsserted := put s.scanner.arcAsserted l asserted }
    ∧ ∀ c, t.link c = { s.link c with fromScanner := (s.link c).fromScanner ++
        (if covers s.evaluator.settings l c = true then [⟨e, s.journal.sent⟩] else []) } := by
  obtain ⟨hframe, hlink⟩ := forEach_deliverScanner e (armedScope s.evaluator.settings l)
    (armedScope_nodup _ _) (setArc l asserted s)
  have hscanner : (forEach (armedScope s.evaluator.settings l) (fun c => deliverScanner c e)
      (setArc l asserted s)).scanner = (setArc l asserted s).scanner := by
    have h := congrArg State.scanner hframe
    exact h
  refine ⟨hframe.trans (by rw [hscanner]; rfl), by rw [hframe]; rfl, fun c => ?_⟩
  rw [hlink c]
  by_cases h : c ∈ armedScope s.evaluator.settings l
  · rw [if_pos h, if_pos ((mem_armedScope _ _ _).mp h)]; rfl
  · rw [if_neg h, if_neg fun k => h ((mem_armedScope _ _ _).mpr k), List.append_nil]; rfl

/-- Settles O35: by the line's state and the spell. -/
theorem arcLinesChange : Obligations.ArcLinesChange := by
  intro l spell s
  refine ⟨fun hrunning hspell hline => ⟨_, if_pos ⟨hrunning, hspell, hline⟩, deliverArmed_spec l (.strike l) true s⟩,
    fun hrunning hspell hline => ⟨_, if_pos ⟨hrunning, hspell, hline⟩, deliverArmed_spec l (.arcCleared l) false s⟩,
    fun hspell => ⟨if_neg fun h => absurd h.2.1 (Nat.not_le.mpr hspell),
      if_neg fun h => absurd h.2.1 (Nat.not_le.mpr hspell)⟩,
    fun hline => if_neg fun h => ?_, fun hline => if_neg fun h => ?_⟩
  · rw [hline] at h; simp at h
  · rw [hline] at h; simp at h

/-! ## The interlock loop (R11, R12) -/

/-- R11, R12: what a change of the interlock state changes. -/
theorem changeInterlock_spec (closed : Bool) (s : State) :
    let t := changeInterlock closed s
    t = { s with scanner := t.scanner, links := t.links, journal := t.journal }
    ∧ t.scanner = { s.scanner with interlockClosed := closed, closureTimer := none }
    ∧ (∀ c, t.link c = { s.link c with fromScanner := (s.link c).fromScanner ++
        [⟨if closed then .closed else .opened, s.journal.sent⟩] })
    ∧ Sent s t .scanner none false
        { time := s.now, kind := if closed then .interlockClosed else .interlockOpened } := by
  intro t
  obtain ⟨hframe, hlink⟩ := forEach_deliverScanner (if closed then .closed else .opened) allChannels allChannels_nodup
    (s.setScanner { s.scanner with interlockClosed := closed, closureTimer := none })
  have ht : t = sendRecord .scanner none false
      { time := s.now, kind := if closed then .interlockClosed else .interlockOpened }
      (forEach allChannels (fun c => deliverScanner c (if closed then .closed else .opened))
        (s.setScanner { s.scanner with interlockClosed := closed, closureTimer := none })) := by
    show changeInterlock closed s = _
    unfold changeInterlock
    rw [hframe]
    rfl
  refine ⟨by rw [ht, hframe]; rfl, by rw [ht, hframe]; rfl, fun c => ?_, by rw [ht, hframe]; rfl⟩
  rw [ht]
  exact (hlink c).trans (if_pos (mem_allChannels c))

/-- Settles O36: by the interlock's state, the spell and the closure timer. -/
theorem interlockFollowsTheLoop : Obligations.InterlockFollowsTheLoop := by
  intro spell s
  refine ⟨fun hrunning hclosed hspell => ⟨changeInterlock false s, ?opens, changeInterlock_spec false s⟩,
    fun hrunning hclosed hspell => ?short, fun hrunning hopen => ⟨_, ?abandons, rfl⟩,
    fun hrunning hopen => ⟨_, if_pos ⟨hrunning, hopen⟩, rfl⟩,
    fun finish hopen htimer => ⟨fun hreached => ⟨changeInterlock true s, ?closes, changeInterlock_spec true s⟩,
      fun hearly => ?early⟩, fun htimer => ?none⟩
  case opens => simp [exec, execInterlockLoopOpening, hrunning, hclosed, Config.qualifyNs, hspell]
  case short => simp [exec, execInterlockLoopOpening, hrunning, hclosed, Config.qualifyNs, Nat.not_le.mpr hspell]
  case abandons =>
    show execInterlockLoopOpening spell s = .next (s.setScanner { s.scanner with closureTimer := none })
    simp [execInterlockLoopOpening, hrunning, hopen]
  case closes => simp [exec, execClosureTimerExpiry, htimer, hopen, reached_of_lt hreached]
  case early => simp [exec, execClosureTimerExpiry, htimer, not_reached_of_le hearly]
  case none => simp [exec, execClosureTimerExpiry, htimer]

/-! ## Frame marks (R16 to R18) -/

/-- R16, R17: what a change of the mark state changes. -/
theorem setPresent_spec (c : Channel) (present : Bool) (s : State) :
    let t := setPresent c present s
    t = { s with monitors := t.monitors, journal := t.journal }
    ∧ (∀ d, d ≠ c → t.monitor d = s.monitor d) ∧ t.monitor c = { s.monitor c with present := present }
    ∧ ((s.monitor c).present = present → t.journal = s.journal)
    ∧ ((s.monitor c).present ≠ present → Sent s t (.monitor c) none false
        { time := s.now, kind := if present then .frameMarkBack else .frameMarkLost, channel := some c }) := by
  intro t
  by_cases h : (s.monitor c).present = present
  · have ht : t = s := if_pos h
    rw [ht]
    exact ⟨rfl, fun _ _ => rfl, by rw [← h], fun _ => rfl, fun hne => absurd h hne⟩
  · have ht : t = sendRecord (.monitor c) none false
        { time := s.now, kind := if present then .frameMarkBack else .frameMarkLost, channel := some c }
        (s.setMonitor c { s.monitor c with present := present }) := if_neg h
    rw [ht]
    exact ⟨rfl, fun d hd => by simp [sendRecord, hd], by simp [sendRecord], fun hsame => absurd hsame h, fun _ => rfl⟩

theorem passMark_eq (c : Channel) (s : State) : passMark c s
    = (s.setLink c { s.link c with marks := (s.link c).marks + 1 }).setMonitor c { s.monitor c with
        lastMark := s.now, interval := ((s.chan c).profile.map (fun p => p.markTimeout)).getD 250 } := by
  have htimeout : markTimeout c (deliverMark c s) = ((s.chan c).profile.map (fun p => p.markTimeout)).getD 250 := by
    show markTimeout c s = _
    unfold markTimeout
    cases (s.chan c).profile <;> rfl
  rw [passMark, htimeout]
  rfl

/-- Settles O37: the order of the mark and of the change of mark state differs between the two. -/
theorem frameMarksAreMonitored : Obligations.FrameMarksAreMonitored := by
  intro c spell s hrunning
  refine ⟨fun hspell => ⟨_, if_pos ⟨hrunning, hspell⟩, ?real⟩,
    fun hspell => if_neg fun h => absurd h.2 (Nat.not_le.mpr hspell), fun hout => ⟨_, if_pos ⟨hrunning, hout⟩, ?lost⟩,
    fun hearly => if_neg fun h => absurd h.2 (Nat.not_le.mpr hearly)⟩
  case real =>
    obtain ⟨hframe, hothers, hmonitor, hkept, hsent⟩ := setPresent_spec c true (countMark c s)
    have hcounted : (countMark c s).monitor c = { s.monitor c with realMarks := (s.monitor c).realMarks + 1 } := by
      simp [countMark]
    rw [hcounted] at hmonitor hkept hsent
    have hother : ∀ d, d ≠ c → (countMark c s).monitor d = s.monitor d := fun d hd => by simp [countMark, hd]
    rw [passMark_eq]
    generalize setPresent c true (countMark c s) = u at *
    have hchan : u.chan = s.chan := by rw [hframe]; rfl
    have hlink : u.link = s.link := by rw [hframe]; rfl
    have hnow : u.now = s.now := by rw [hframe]; rfl
    refine ⟨by rw [hframe]; rfl, by simp [hmonitor, hchan, hnow], by simp [hlink], fun hp => hkept hp,
      fun hp => hsent (by simp [hp]), fun d hd => ?_⟩
    have hstrike : u.strike d = s.strike d := by rw [hframe]; rfl
    have hresolver : u.resolver d = s.resolver d := by rw [hframe]; rfl
    simp [hd, hchan, hlink, hothers d hd, hother d hd, hstrike, hresolver]
  case lost =>
    obtain ⟨hframe, hothers, hmonitor, hkept, hsent⟩ := setPresent_spec c false (passMark c s)
    rw [passMark_eq] at *
    simp only [State.setMonitor_monitor_same] at hmonitor hkept hsent
    refine ⟨by rw [hframe]; rfl, hmonitor, ?_, fun hp => hkept hp, fun hp => hsent (by simp [hp]), fun d hd => ?_⟩
    · rw [hframe]
      exact look_put_same _ _ _
    · refine ⟨by rw [hframe]; rfl, by rw [hframe]; rfl, by rw [hframe]; rfl, ?_, ?_⟩
      · rw [hothers d hd]; simp [hd]
      · rw [hframe]
        exact look_put_ne _ _ _ _ hd

end Sys2Proof.Machine


/-! The Capture Unit (chapter 8): headers in common memory, holding and releasing, the fill and the triggers. -/

namespace Sys2Proof.Machine

variable {s t u : State} {b : BufferIx}

/-! ## Headers in common memory (R149) -/

/-- Section 11.4: a header in common memory holds the fields of a buffer. -/
def HeaderAt (m : Memory) (b : BufferIx) (x : CaptureBuffer) : Prop :=
  readNum m (0x0E00 + 32 * b.val) 2 = x.state.code ∧ readNum m (0x0E00 + 32 * b.val + 2) 2 = x.mask.toNat
  ∧ readNum m (0x0E00 + 32 * b.val + 4) 4 = x.sequence.toNat ∧ readNum m (0x0E00 + 32 * b.val + 8) 4 = x.time.toNat
  ∧ ∀ a, 0x0E00 + 32 * b.val + 12 ≤ a → a < 0x0E00 + 32 * b.val + 32 → readByte m a = 0

/-- The bytes of a header (section 11.4). -/
def captureHeader (x : CaptureBuffer) : List Byte :=
  numBytes 2 x.state.code ++ numBytes 2 x.mask.toNat ++ numBytes 4 x.sequence.toNat ++ numBytes 4 x.time.toNat
    ++ numBytes 20 0

theorem writeCaptureHeader_eq (b : BufferIx) (s : State) :
    writeCaptureHeader b s = s.write (0x0E00 + 32 * b.val) (captureHeader (s.buffer b)) := rfl

theorem length_captureHeader (x : CaptureBuffer) : (captureHeader x).length = 32 := by simp [captureHeader]

theorem BufferState.code_lt (st : BufferState) : st.code < 256 ^ 2 := by cases st <;> decide

/-- The bytes of a number 0. -/
theorem numBytes_zero (n : Nat) : numBytes n 0 = List.replicate n 0 := by
  induction n with
  | zero => rfl
  | succ n ih => simp [numBytes, ih, List.replicate_succ]

theorem headerAt_written (m : Memory) (b : BufferIx) (x : CaptureBuffer) :
    HeaderAt (writeBytes m (0x0E00 + 32 * b.val) (captureHeader x)) b x := by
  have hmask : x.mask.toNat < 256 ^ 2 := Nat.lt_trans x.mask.isLt (by decide)
  refine ⟨?_, ?_, ?_, ?_, fun a hlow hhigh => ?_⟩
  · exact readNum_written _ _ 2 _ _ _ [] _ (by simp [captureHeader]; rfl) (by simp) x.state.code_lt
  · exact readNum_written _ _ 2 _ _ _ (numBytes 2 x.state.code) _ (by simp [captureHeader]; rfl) (by simp) hmask
  · exact readNum_written _ _ 4 _ _ _ (numBytes 2 x.state.code ++ numBytes 2 x.mask.toNat) _
      (by simp [captureHeader]; rfl) (by simp) x.sequence.isLt
  · exact readNum_written _ _ 4 _ _ _ (numBytes 2 x.state.code ++ numBytes 2 x.mask.toNat
      ++ numBytes 4 x.sequence.toNat) (numBytes 20 0) (by simp [captureHeader]) (by simp) x.time.isLt
  · rw [readByte_writeBytes, if_pos (by rw [length_captureHeader]; omega), captureHeader, numBytes_zero,
      List.getD_append_right _ _ _ _ (by simp; omega), List.getD_eq_getElem?_getD]
    exact List.getElem?_getD_replicate_default_eq _ _ _

theorem HeaderAt.congr {m m' : Memory} {x : CaptureBuffer} (h : HeaderAt m b x)
    (hm : ∀ a, headerBytes b a → readByte m' a = readByte m a) : HeaderAt m' b x := by
  obtain ⟨hstate, hmask, hsequence, htime, hrest⟩ := h
  have hnum : ∀ a n, 0x0E00 + 32 * b.val ≤ a → a + n ≤ 0x0E00 + 32 * b.val + 32 → readNum m' a n = readNum m a n :=
    fun a n hlow hhigh => readNum_congr _ _ _ _ fun y h1 h2 => hm y ⟨by simp only [Config.captureHeaderBase]; omega,
      by simp only [Config.captureHeaderBase]; omega⟩
  exact ⟨(hnum _ _ (by omega) (by omega)).trans hstate, (hnum _ _ (by omega) (by omega)).trans hmask,
    (hnum _ _ (by omega) (by omega)).trans hsequence, (hnum _ _ (by omega) (by omega)).trans htime,
    fun a h1 h2 => (hm a ⟨by simp only [Config.captureHeaderBase]; omega, h2⟩).trans (hrest a h1 h2)⟩

/-- R149: a changed buffer's header stands in common memory. -/
theorem changeBuffer_headerAt (b : BufferIx) (x : CaptureBuffer) (s : State) :
    HeaderAt (changeBuffer b x s).mem b x := by
  have h := headerAt_written s.mem b ((s.setBuffer b x).buffer b)
  rw [State.setBuffer_buffer_same] at h
  rw [changeBuffer, writeCaptureHeader_eq, State.setBuffer_buffer_same]
  exact h

/-! ## Holding and releasing (R147, R148) -/

section
variable {k : SlotIx} {n kind w1 w2 w3 : Nat} {code : ResultCode} {a : Arguments}

theorem captureRefusal_of_bad (h : 4 ≤ w1) : captureRefusal ⟨w1, w2, w3⟩ s = .inr .badArgument := by
  simp [captureRefusal, index_of_le h]

theorem captureRefusal_of_unsent (h : (s.buffer b).state = .free ∨ (s.buffer b).state = .filling) :
    captureRefusal ⟨b.val, w2, w3⟩ s = .inr .wrongState := by
  rcases h with h | h <;> simp [captureRefusal, h]

theorem captureRefusal_of_full (h : (s.buffer b).state = .ready ∨ (s.buffer b).state = .held) :
    captureRefusal ⟨b.val, w2, w3⟩ s
      = if (s.buffer b).sequence.toNat = w2 + 65536 * w3 then .inl b else .inr .gone := by
  unfold captureRefusal
  rcases h with h | h <;> simp only [index_val, h] <;> rfl

theorem holdCapture_of_refusal (h : captureRefusal a s = .inr code) : holdCapture a s = (s, ⟨code, 0, 0⟩) := by
  simp [holdCapture, h]

theorem releaseCapture_of_refusal (h : captureRefusal a s = .inr code) : releaseCapture a s = (s, ⟨code, 0, 0⟩) := by
  simp [releaseCapture, h]

theorem holdCapture_of_ready (h : captureRefusal a s = .inl b) (hst : (s.buffer b).state = .ready) :
    holdCapture a s = (changeBuffer b { s.buffer b with state := .held } s, ⟨.ok, 0, 0⟩) := by
  simp [holdCapture, h, hst]

theorem holdCapture_of_held (h : captureRefusal a s = .inl b) (hst : (s.buffer b).state = .held) :
    holdCapture a s = (s, ⟨.ok, 0, 0⟩) := by
  simp [holdCapture, h, hst]

theorem releaseCapture_of (h : captureRefusal a s = .inl b) :
    releaseCapture a s = (changeBuffer b { s.buffer b with state := .free } s, ⟨.ok, 0, 0⟩) := by
  simp [releaseCapture, h]

/-- R147, R148: both requests are refused alike. -/
theorem captureRequest_refused (hkind : kind = 11 ∨ kind = 12) (h : Offered s k n kind w1 w2 w3)
    (hrefusal : captureRefusal ⟨w1, w2, w3⟩ (writeSlotState k 2 s) = .inr code) :
    ∃ t, exec (requestCommand (kindOf kind)) s = .next t ∧ Answered s t k n ⟨code, 0, 0⟩ := by
  rcases hkind with rfl | rfl
  · exact h.refusal rfl (holdCapture_of_refusal hrefusal)
  · exact h.refusal rfl (releaseCapture_of_refusal hrefusal)

/-- R147, R148: what a request that changes a buffer's header leaves, once its slot is completed. -/
theorem completeSlot_changeBuffer (h : Offered s k n kind w1 w2 w3) (b : BufferIx) (x : CaptureBuffer) :
    let t := completeSlot k ⟨.ok, 0, 0⟩ (changeBuffer b x (writeSlotState k 2 s))
    Answered s t k n ⟨.ok, 0, 0⟩ ∧ t = { s with mem := t.mem, handler := t.handler, captures := t.captures }
    ∧ t.buffer b = x ∧ (∀ a, a ≠ b → t.buffer a = s.buffer a) ∧ t.captures.postCounts = s.captures.postCounts
    ∧ readNum t.mem (Config.captureHeaderBase + 32 * b.val) 2 = x.state.code
    ∧ MemoryBut (fun a => slotBytes k a ∨ headerBytes b a) s t := by
  intro t
  refine ⟨h.answered rfl (by simp) (by simp), ?_, ?_, fun a ha => ?_, ?_, ?_,
    completeSlot_written (changeBuffer_memoryBut b x _)⟩
  · simp only [t]; rw [completeSlot_frame]; rfl
  · rw [completeSlot_buffer, changeBuffer_buffer_same]
  · rw [completeSlot_buffer, changeBuffer_buffer_ne _ _ ha]; rfl
  · simp only [t]; rw [completeSlot_captures]; rfl
  · obtain ⟨hstate, -⟩ := changeBuffer_headerAt b x (writeSlotState k 2 s)
    rw [completeSlot_readNum _ _ (.inr (by simp [Config.captureHeaderBase]; omega))]
    exact hstate

end

/-- Settles O28: by the request and the buffer's state. -/
theorem capturesAreHeldAndReleased : Obligations.CapturesAreHeldAndReleased := by
  intro s k n kind w1 w2 w3 hkind h
  refine ⟨fun hbad => captureRequest_refused hkind h (captureRefusal_of_bad hbad), fun b hb => ?_⟩
  subst hb
  refine ⟨fun hst => captureRequest_refused hkind h (captureRefusal_of_unsent hst),
    fun hst hgone => captureRequest_refused hkind h ((captureRefusal_of_full hst).trans (if_neg hgone)),
    fun hst hsequence => ?_⟩
  have htaken : captureRefusal ⟨b.val, w2, w3⟩ (writeSlotState k 2 s) = .inl b :=
    (captureRefusal_of_full hst).trans (if_pos hsequence)
  rcases hkind with rfl | rfl
  case inr =>
    obtain ⟨hanswered, hframe, hsame, hothers, hcounts, hheader, hwritten⟩ :=
      completeSlot_changeBuffer h b { s.buffer b with state := .free }
    exact ⟨_, congrArg Host.Outcome.next (h.visitFor_eq rfl (releaseCapture_of htaken)), hanswered, by simp,
      fun _ => congrArg Host.Outcome.next (h.visitFor_eq rfl (releaseCapture_of htaken)), hframe, hsame, hothers,
      hcounts, fun _ => hheader, hwritten⟩
  case inl =>
    rcases hst with hst | hst
    · obtain ⟨hanswered, hframe, hsame, hothers, hcounts, hheader, hwritten⟩ :=
        completeSlot_changeBuffer h b { s.buffer b with state := .held }
      exact ⟨_, congrArg Host.Outcome.next (h.visitFor_eq rfl (holdCapture_of_ready htaken hst)), hanswered,
        fun _ => congrArg Host.Outcome.next (h.visitFor_eq rfl (holdCapture_of_ready htaken hst)), by simp, hframe,
        hsame, hothers, hcounts, fun _ => hheader, hwritten⟩
    · refine ⟨_, congrArg Host.Outcome.next (h.visitFor_eq rfl (holdCapture_of_held htaken hst)),
        h.answered rfl (by simp) (by simp),
        fun _ => congrArg Host.Outcome.next (h.visitFor_eq rfl (holdCapture_of_held htaken hst)), by simp,
        by rw [completeSlot_frame]; rfl, ?_, fun a ha => by rw [completeSlot_buffer]; rfl,
        by rw [completeSlot_captures]; rfl, fun hne => absurd ⟨rfl, hst⟩ hne,
        (completeSlot_written_slot rfl).mono fun _ hslot => .inl hslot⟩
      rw [completeSlot_buffer, if_pos rfl, ← hst]
      rfl

end Sys2Proof.Machine


/-! Sample arrivals (R2, R3, R14) and the post-trigger fill (R144, R145). -/

namespace Sys2Proof.Machine

variable {s t u : State} {b : BufferIx} {p : Point} {j : CapturedIx}

/-! ## The parts that make a block -/

theorem eq_of_look {α : Type} {n : Nat} {v w : Vector α n} (h : ∀ i, look v i = look w i) : v = w :=
  Vector.ext fun i hi => h ⟨i, hi⟩

theorem SameBut.resolvers {ps : List Part} (h : SameBut ps s t) (hlevels : .levels ∉ ps) (hsets : .activeSets ∉ ps) :
    t.resolvers = s.resolvers := by
  refine eq_of_look fun c => ?_
  have hset : (t.resolver c).activeSet = (s.resolver c).activeSet := h .activeSets hsets c
  calc t.resolver c = { ({ t.resolver c with activeSet := [] } : DriveResolver) with
          activeSet := (t.resolver c).activeSet } := rfl
    _ = { ({ s.resolver c with activeSet := [] } : DriveResolver) with activeSet := (s.resolver c).activeSet } := by
        rw [h .levels hlevels c, hset]
    _ = s.resolver c := rfl

/-! ## The point and its ring (R2, R3, R14) -/

theorem capturedIndex_eq_some_iff :
    ∀ (p : Point) (j : CapturedIx), capturedIndex p = some j ↔ p.val = [84, 85, 73, 76, 79, 82].getD j.val 96 := by
  decide

theorem capturedIndex_eq_none_iff : ∀ p : Point, capturedIndex p = none ↔ p.val ∉ [84, 85, 73, 76, 79, 82] := by
  decide

theorem saturate_eq (input : Int) :
    saturate input = if input < 0 then 0 else if 4095 < input then 4095 else input.toNat := by
  unfold saturate
  split_ifs <;> omega

/-- R2, R3: the arrival is written at its point, evaluated, and handed to its ring and the Capture Unit. -/
def arrived (p : Point) (input : Int) (order : List EntryIx) (s : State) : State :=
  captureArrival p (saturate input) (evaluate p order (takeCount p (saturate input) s))

theorem exec_sampleArrival_of_running (hrunning : running s = true) (p : Point) (input : Int) (order : List EntryIx) :
    exec (.sampleArrival p input order) s = .next (arrived p input order s) := if_pos hrunning

theorem evaluate_sameBut (p : Point) (order : List EntryIx) (s : State) :
    SameBut [.entries, .links, .foldback, .trips, .journal] s (evaluate p order s) := by simp

theorem evaluate_scanner (p : Point) (order : List EntryIx) (s : State) :
    (evaluate p order s).scanner = s.scanner := evaluate_sameBut p order s .scanner (by simp)

theorem fillCapture_scanner (j : CapturedIx) (value : Nat) (s : State) :
    (fillCapture j value s).scanner = s.scanner := by
  have h : SameBut [.mem, .captures] s (fillCapture j value s) := by simp
  exact h .scanner (by simp)

/-- R3, R14: what an arrival leaves at the Input Scanner. -/
theorem arrived_scanner (p : Point) (input : Int) (order : List EntryIx) (s : State) :
    (arrived p input order s).scanner = { (takeCount p (saturate input) s).scanner with
      rings := match capturedIndex p with
        | none => s.scanner.rings
        | some j => put s.scanner.rings j ((look s.scanner.rings j).push (saturate input)) } := by
  unfold arrived captureArrival
  cases capturedIndex p with
  | none => rw [evaluate_scanner]; rfl
  | some j =>
    simp only []
    rw [fillCapture_scanner, pushRing, State.setScanner_scanner, evaluate_scanner]
    rfl

theorem arrived_latest (p : Point) (input : Int) (order : List EntryIx) (s : State) :
    look (arrived p input order s).scanner.latest p = saturate input := by
  rw [arrived_scanner]
  exact look_put_same _ _ _

/-- Settles O29: the point's values by `takeCount`, the ring by the point's place among the captured points. -/
theorem arrivalsWriteTheirPoint : Obligations.ArrivalsWriteTheirPoint := by
  intro p input order s
  refine ⟨fun hout => if_neg (by simp [hout]), fun hrunning =>
    ⟨_, exec_sampleArrival_of_running hrunning p input order, ?frame, ?scanner, ?latest, ?previous, ?arrived,
      fun q hq => ?others, fun j => ?rings⟩⟩
  case frame =>
    have h := exec_sameBut (exec_sampleArrival_of_running hrunning p input order)
    exact State.same (h .phase (by simp [footprint])) (h .now (by simp [footprint])) rfl
      (h .initialized (by simp [footprint])) rfl (h .monitors (by simp [footprint])) rfl
      (h .chans (by simp [footprint])) (h .strikes (by simp [footprint])) (h.resolvers (by simp [footprint]) (by simp [footprint]))
      (h .arbiter (by simp [footprint])) (h .positions (by simp [footprint])) rfl (h .handler (by simp [footprint]))
      rfl (h .status (by simp [footprint])) (h .irqEnable (by simp [footprint])) rfl rfl
      (h .pending (by simp [footprint]))
  case scanner => rw [arrived_scanner]; rfl
  case latest => rw [arrived_latest, saturate_eq]
  case previous =>
    rw [arrived_latest, arrived_scanner]
    exact look_put_same _ _ _
  case arrived =>
    rw [arrived_scanner]
    exact look_put_same _ _ _
  case others =>
    rw [arrived_scanner]
    exact ⟨look_put_ne _ _ _ _ hq, look_put_ne _ _ _ _ hq, look_put_ne _ _ _ _ hq⟩
  case rings =>
    rw [arrived_latest, arrived_scanner]
    by_cases hj : capturedIndex p = some j
    · rw [if_pos ((capturedIndex_eq_some_iff p j).mp hj), hj]
      exact look_put_same _ _ _
    · rw [if_neg fun h => hj ((capturedIndex_eq_some_iff p j).mpr h)]
      cases hp : capturedIndex p with
      | none => rfl
      | some i => exact look_put_ne _ _ _ _ fun hji => hj (hji ▸ hp)

/-! ## The fill (R144, R145) -/

theorem findBuffer_of_none {st : BufferState} (h : ∀ b, (s.buffer b).state ≠ st) : findBuffer st s = none := by
  simpa [findBuffer] using h

theorem findBuffer_of_only {st : BufferState} (hb : (s.buffer b).state = st)
    (honly : ∀ a, (s.buffer a).state = st → a = b) : findBuffer st s = some b := by
  cases hfound : findBuffer st s with
  | none => exact absurd hb (findBuffer_none hfound b)
  | some a => rw [honly a (findBuffer_some hfound)]

/-- R145: the FILLING buffer is complete. -/
def Complete (b : BufferIx) (s : State) : Prop :=
  (∀ i, look s.captures.postCounts i = 64) ∧ (s.buffer b).sequence ≠ 0

theorem complete_iff (b : BufferIx) (s : State) :
    ((List.finRange 6).all (fun i => look s.captures.postCounts i == 64) && (s.buffer b).sequence != 0) = true
      ↔ Complete b s := by
  simp [Complete]

theorem finishFill_of_complete (h : findBuffer .filling s = some b) (hc : Complete b s) :
    finishFill s = changeBuffer b { s.buffer b with state := .ready } s := by
  simp only [finishFill, h]
  exact if_pos ((complete_iff b s).mpr hc)

theorem finishFill_of_incomplete (h : findBuffer .filling s = some b) (hc : ¬ Complete b s) : finishFill s = s := by
  simp only [finishFill, h]
  exact if_neg fun k => hc ((complete_iff b s).mp k)

/-- R145: what the end of a fill leaves, with one buffer FILLING. -/
structure Finished (b : BufferIx) (s t : State) : Prop where
  complete : Complete b s → t.buffer b = { s.buffer b with state := .ready }
  incomplete : ¬ Complete b s → t.buffer b = { s.buffer b with state := .filling }
  others : ∀ a, a ≠ b → t.buffer a = s.buffer a
  postCounts : t.captures.postCounts = s.captures.postCounts
  header : (t.buffer b).state = .ready → HeaderAt t.mem b (t.buffer b)
  written : MemoryBut (fun a => (t.buffer b).state = .ready ∧ headerBytes b a) s t

theorem Finished.buffer (h : Finished b s t) {q : Prop} [Decidable q] (hq : q ↔ Complete b s) :
    t.buffer b = { s.buffer b with state := if q then .ready else .filling } := by
  by_cases hc : q
  · rw [if_pos hc]; exact h.complete (hq.mp hc)
  · rw [if_neg hc]; exact h.incomplete fun k => hc (hq.mpr k)

theorem finishFill_finished (hb : (s.buffer b).state = .filling) (honly : ∀ a, (s.buffer a).state = .filling → a = b) :
    Finished b s (finishFill s) := by
  have hfound := findBuffer_of_only hb honly
  by_cases hc : Complete b s
  · rw [finishFill_of_complete hfound hc]
    have hready : ((changeBuffer b { s.buffer b with state := .ready } s).buffer b).state = .ready := by
      rw [changeBuffer_buffer_same]
    exact ⟨fun _ => changeBuffer_buffer_same _ _ _, fun h => absurd hc h, fun a ha => changeBuffer_buffer_ne _ _ ha, rfl,
      fun _ => by rw [changeBuffer_buffer_same]; exact changeBuffer_headerAt b _ s,
      (changeBuffer_memoryBut b _ s).mono fun _ h => ⟨hready, h⟩⟩
  · rw [finishFill_of_incomplete hfound hc]
    exact ⟨fun h => absurd h hc, fun _ => by rw [← hb], fun _ _ => rfl, rfl,
      fun h => absurd (hb.symm.trans h) (by decide), .refl _ _⟩

theorem fillCapture_of_none (h : ∀ b, (s.buffer b).state ≠ .filling) (j : CapturedIx) (value : Nat) :
    fillCapture j value s = s := by
  simp [fillCapture, findBuffer_of_none h]

theorem fillCapture_of_full (h : findBuffer .filling s = some b) (hfull : 64 ≤ look s.captures.postCounts j)
    (value : Nat) : fillCapture j value s = s := by
  simp [fillCapture, h, Nat.not_lt.mpr hfull]

/-- R144: where the next post-trigger sample of a captured point stands. -/
def samplePlace (b : BufferIx) (j : CapturedIx) (s : State) : Nat :=
  0x3000 + 1536 * b.val + 12 * (64 + look s.captures.postCounts j) + 2 * j.val

/-- R144: the sample is written and counted. -/
def takeSample (b : BufferIx) (j : CapturedIx) (value : Nat) (s : State) : State :=
  (s.write (samplePlace b j s) (numBytes 2 value)).setCaptures
    { s.captures with postCounts := put s.captures.postCounts j (look s.captures.postCounts j + 1) }

theorem fillCapture_of_room (h : findBuffer .filling s = some b) (hroom : look s.captures.postCounts j < 64)
    (value : Nat) : fillCapture j value s = finishFill (takeSample b j value s) := by
  simp only [fillCapture, h, hroom, if_true]
  rfl

/-- The state whose Capture Unit takes an arrival: nothing of that unit, and nothing of common memory, has changed. -/
def sampled (p : Point) (input : Int) (order : List EntryIx) (j : CapturedIx) (s : State) : State :=
  pushRing j (saturate input) (evaluate p order (takeCount p (saturate input) s))

theorem sampled_sameBut (p : Point) (input : Int) (order : List EntryIx) (j : CapturedIx) (s : State) :
    SameBut [.scanner, .entries, .links, .foldback, .trips, .journal] s (sampled p input order j s) := by
  simp [sampled, pushRing]

theorem sampled_captures (p : Point) (input : Int) (order : List EntryIx) (j : CapturedIx) (s : State) :
    (sampled p input order j s).captures = s.captures := sampled_sameBut p input order j s .captures (by simp)

theorem sampled_mem (p : Point) (input : Int) (order : List EntryIx) (j : CapturedIx) (s : State) :
    (sampled p input order j s).mem = s.mem := sampled_sameBut p input order j s .mem (by simp)

theorem sampled_buffer (p : Point) (input : Int) (order : List EntryIx) (j : CapturedIx) (s : State) (b : BufferIx) :
    (sampled p input order j s).buffer b = s.buffer b := by
  rw [State.buffer, sampled_captures]; rfl

theorem arrived_of_captured (h : capturedIndex p = some j) (input : Int) (order : List EntryIx) (s : State) :
    arrived p input order s = fillCapture j (saturate input) (sampled p input order j s) := by
  simp [arrived, captureArrival, h, sampled]

/-- An arrival of a point that is not captured leaves the Capture Unit and common memory alone. -/
theorem arrived_of_not_captured (h : capturedIndex p = none) (input : Int) (order : List EntryIx) (s : State) :
    (arrived p input order s).captures = s.captures ∧ (arrived p input order s).mem = s.mem := by
  have hsame : SameBut [.scanner, .entries, .links, .foldback, .trips, .journal] s (arrived p input order s) := by
    simp [arrived, captureArrival, h]
  exact ⟨hsame .captures (by simp), hsame .mem (by simp)⟩

/-- Settles O30: by the FILLING buffer, the captured point and its post count. -/
theorem arrivalsFillTheCapture : Obligations.ArrivalsFillTheCapture := by
  intro p input order s hrunning
  have hexec := exec_sampleArrival_of_running hrunning p input order
  refine ⟨fun hidle => ⟨_, hexec, ?idle⟩, fun b j hb honly hp => ?filling⟩
  case idle =>
    cases hj : capturedIndex p with
    | none => exact arrived_of_not_captured hj input order s
    | some j =>
      have hempty : ∀ b, (s.buffer b).state ≠ .filling := hidle.resolve_right fun h =>
        absurd ((capturedIndex_eq_none_iff p).mpr h) (by simp [hj])
      rw [arrived_of_captured hj, fillCapture_of_none fun b => by rw [sampled_buffer]; exact hempty b]
      exact ⟨sampled_captures .., sampled_mem ..⟩
  case filling =>
    have hj := (capturedIndex_eq_some_iff p j).mpr hp
    have hfound : findBuffer .filling (sampled p input order j s) = some b :=
      findBuffer_of_only (by rw [sampled_buffer]; exact hb) fun a ha => honly a (by rwa [sampled_buffer] at ha)
    have hcounts : (sampled p input order j s).captures.postCounts = s.captures.postCounts := by rw [sampled_captures]
    refine ⟨fun hfull => ⟨_, hexec, ?full⟩, fun hroom => ⟨_, hexec, ?room⟩⟩
    case full =>
      rw [arrived_of_captured hj, fillCapture_of_full hfound (by rwa [hcounts])]
      exact ⟨sampled_captures .., sampled_mem ..⟩
    case room =>
      rw [arrived_latest, arrived_of_captured hj, fillCapture_of_room hfound (by rwa [hcounts])]
      generalize hv : takeSample b j (saturate input) (sampled p input order j s) = v
      have hbuffer : ∀ a, v.buffer a = s.buffer a := fun a => by
        rw [← hv, ← sampled_buffer p input order j s a]; rfl
      have hposts : v.captures.postCounts = put s.captures.postCounts j (look s.captures.postCounts j + 1) := by
        rw [← hv, ← hcounts]; rfl
      have hplace : samplePlace b j (sampled p input order j s)
          = 0x3000 + 1536 * b.val + 12 * (64 + look s.captures.postCounts j) + 2 * j.val := by
        rw [samplePlace, hcounts]
      have hmem : v.mem = writeBytes s.mem
          (0x3000 + 1536 * b.val + 12 * (64 + look s.captures.postCounts j) + 2 * j.val)
          (numBytes 2 (saturate input)) := by
        rw [← hv, ← hplace, ← sampled_mem p input order j s]; rfl
      have hfinished : Finished b v (finishFill v) :=
        finishFill_finished (by rw [hbuffer]; exact hb) (fun a ha => honly a (by rwa [hbuffer] at ha))
      have hpostCounts := hfinished.postCounts
      refine ⟨hpostCounts.trans hposts, fun a ha => (hfinished.others a ha).trans (hbuffer a), ?buffer, ?sample,
        fun hready => ?header, fun a ha => ?written⟩
      case buffer =>
        rw [← hbuffer b, hpostCounts]
        exact hfinished.buffer Iff.rfl
      case sample =>
        have hnum : readNum v.mem (0x3000 + 1536 * b.val + 12 * (64 + look s.captures.postCounts j) + 2 * j.val) 2
            = saturate input := by
          rw [hmem, readNum_writeBytes_same]
          exact Nat.mod_eq_of_lt (Nat.lt_of_le_of_lt (saturate_le input) (by decide))
        rw [← hnum]
        refine hfinished.written.readNum _ _ fun i hi hbytes => ?_
        have hbound := b.isLt
        have hbytes := hbytes.2
        simp only [headerBytes, Config.captureHeaderBase] at hbytes
        omega
      case header =>
        obtain ⟨hstate, -⟩ := hfinished.header hready
        rw [hready] at hstate
        exact hstate
      case written =>
        rw [hfinished.written a fun h => ha (.inl h), hmem, readByte_writeBytes, if_neg fun h => ha (.inr ?_)]
        rwa [length_numBytes] at h

end Sys2Proof.Machine


/-! Capture triggers (R140 to R143) and the numbering of records (R164, R165). -/

namespace Sys2Proof.Machine

variable {s t u : State} {b : BufferIx} {c : Channel}

/-! ## Where a trigger goes (R140, R146) -/

/-- A fold that keeps the greater of two by a measure, the first of equals, ends with a greatest one. -/
theorem foldl_greatest {α : Type} {step : Option α → α → Option α} (f : α → Nat)
    (hnone : ∀ y, step none y = some y) (hsome : ∀ x y, step (some x) y = if f x < f y then some y else some x) :
    ∀ (l : List α) (x : α), ∃ z, l.foldl step (some x) = some z ∧ (z = x ∨ z ∈ l) ∧ f x ≤ f z ∧ ∀ y ∈ l, f y ≤ f z
  | [], x => ⟨x, rfl, .inl rfl, Nat.le_refl _, by simp⟩
  | y :: l, x => by
    rw [List.foldl_cons, hsome]
    by_cases hlt : f x < f y
    · rw [if_pos hlt]
      obtain ⟨z, hz, hmem, hle, hall⟩ := foldl_greatest f hnone hsome l y
      refine ⟨z, hz, .inr (by rcases hmem with rfl | h <;> simp [*]), Nat.le_trans (Nat.le_of_lt hlt) hle, ?_⟩
      simpa using ⟨hle, hall⟩
    · rw [if_neg hlt]
      obtain ⟨z, hz, hmem, hle, hall⟩ := foldl_greatest f hnone hsome l x
      refine ⟨z, hz, hmem.imp_right (List.mem_cons_of_mem y), hle, ?_⟩
      simpa using ⟨Nat.le_trans (Nat.not_lt.mp hlt) hle, hall⟩

/-- R146: the older of two buffers. -/
def olderOf (s : State) (best : Option BufferIx) (b : BufferIx) : Option BufferIx :=
  match best with
  | none => some b
  | some a => if sequencesBack s.journal.newest (s.buffer a).sequence
      < sequencesBack s.journal.newest (s.buffer b).sequence then some b else some a

theorem oldestReady_eq (s : State) : oldestReady s
    = ((List.finRange 4).filter (fun b => (s.buffer b).state == .ready)).foldl (olderOf s) none := rfl

/-- R146: the READY buffer to be reused. -/
theorem oldestReady_of_ready (h : ∃ b, (s.buffer b).state = .ready) :
    ∃ b, oldestReady s = some b ∧ (s.buffer b).state = .ready ∧ ∀ a, (s.buffer a).state = .ready →
      sequencesBack s.journal.newest (s.buffer a).sequence ≤ sequencesBack s.journal.newest (s.buffer b).sequence := by
  have hmem : ∀ b, b ∈ (List.finRange 4).filter (fun b => (s.buffer b).state == .ready)
      ↔ (s.buffer b).state = .ready := fun b => by simp
  rw [oldestReady_eq]
  generalize hl : (List.finRange 4).filter (fun b => (s.buffer b).state == .ready) = l at hmem
  cases l with
  | nil =>
    obtain ⟨b, hb⟩ := h
    exact absurd ((hmem b).mpr hb) (by simp)
  | cons x l =>
    rw [List.foldl_cons]
    obtain ⟨b, hb, hfrom, hle, hall⟩ := foldl_greatest (step := olderOf s)
      (fun b => sequencesBack s.journal.newest (s.buffer b).sequence) (fun y => rfl) (fun x y => rfl) l x
    refine ⟨b, hb, (hmem b).mp (List.mem_cons.mpr hfrom), fun a ha => ?_⟩
    rcases List.mem_cons.mp ((hmem a).mpr ha) with rfl | h
    · exact hle
    · exact hall a h

theorem oldestReady_of_none (h : ∀ b, (s.buffer b).state ≠ .ready) : oldestReady s = none := by
  have hl : (List.finRange 4).filter (fun b => (s.buffer b).state == .ready) = [] := by simpa using h
  rw [oldestReady, hl]
  rfl

/-- The lowest-numbered of the buffers in a state. -/
theorem findBuffer_lowest {st : BufferState} (h : ∃ b, (s.buffer b).state = st) :
    ∃ b, findBuffer st s = some b ∧ (s.buffer b).state = st ∧ ∀ a, a < b → (s.buffer a).state ≠ st := by
  cases hb : findBuffer st s with
  | none =>
    obtain ⟨b, hst⟩ := h
    exact absurd hst (findBuffer_none hb b)
  | some b =>
    refine ⟨b, rfl, findBuffer_some hb, fun a ha => ?_⟩
    have hfind := (find?_finRange_eq_some _ b).mp hb
    simpa using hfind.2 a ha

theorem triggerOutcome_noCapture (h : s.evaluator.settings.captureEnable ≠ 1
      ∨ ((∀ b, (s.buffer b).state ≠ .filling ∧ (s.buffer b).state ≠ .free)
        ∧ (s.evaluator.settings.capturePolicy ≠ 1 ∨ ∀ b, (s.buffer b).state ≠ .ready))) :
    triggerOutcome s = .noCapture := by
  unfold triggerOutcome
  rcases h with h | ⟨hnone, h⟩
  · rw [if_neg h]
  · rw [findBuffer_of_none fun b => (hnone b).1, findBuffer_of_none fun b => (hnone b).2]
    rcases h with h | h
    · simp [h]
    · simp [oldestReady_of_none h]

theorem triggerOutcome_joins (henable : s.evaluator.settings.captureEnable = 1) (hb : (s.buffer b).state = .filling)
    (honly : ∀ a, (s.buffer a).state = .filling → a = b) : triggerOutcome s = .joins b := by
  simp [triggerOutcome, henable, findBuffer_of_only hb honly]

/-- R140, R146: a trigger that starts a buffer takes the lowest FREE one, or the oldest READY one. -/
theorem triggerOutcome_starts (henable : s.evaluator.settings.captureEnable = 1)
    (hnone : ∀ b, (s.buffer b).state ≠ .filling)
    (h : (∃ b, (s.buffer b).state = .free)
      ∨ (s.evaluator.settings.capturePolicy = 1 ∧ ∃ b, (s.buffer b).state = .ready)) :
    ∃ b, triggerOutcome s = .starts b
      ∧ ((∃ a, (s.buffer a).state = .free) → (s.buffer b).state = .free ∧ ∀ a, a < b → (s.buffer a).state ≠ .free)
      ∧ ((∀ a, (s.buffer a).state ≠ .free) → (s.buffer b).state = .ready ∧ ∀ a, (s.buffer a).state = .ready →
        sequencesBack s.journal.newest (s.buffer a).sequence
          ≤ sequencesBack s.journal.newest (s.buffer b).sequence) := by
  by_cases hfree : ∃ b, (s.buffer b).state = .free
  · obtain ⟨b, hb, hlowest⟩ := findBuffer_lowest hfree
    refine ⟨b, by simp [triggerOutcome, henable, findBuffer_of_none hnone, hb], fun _ => hlowest, fun hout => ?_⟩
    exact absurd hlowest.1 (hout b)
  · have hout : ∀ b, (s.buffer b).state ≠ .free := fun b hb => hfree ⟨b, hb⟩
    obtain ⟨hpolicy, hready⟩ := h.resolve_left hfree
    obtain ⟨b, hb, holdest⟩ := oldestReady_of_ready hready
    exact ⟨b, by simp [triggerOutcome, henable, findBuffer_of_none hnone, findBuffer_of_none hout, hpolicy, hb],
      fun h => absurd h hfree, fun _ => holdest⟩

/-! ## The answer to the waiting record (R59, R60) -/

theorem changeFirst_append {α : Type} {fits : α → Bool} (f : α → α) {x : α} (rest : List α) (hx : fits x = true) :
    ∀ front : List α, (∀ y ∈ front, fits y = false) → changeFirst fits f (front ++ x :: rest) = front ++ f x :: rest
  | [], _ => by simp [changeFirst, hx]
  | y :: front, h => by
    simp [changeFirst, h y (by simp), changeFirst_append f rest hx front fun z hz => h z (by simp [hz])]

theorem takeTrigger_sameBut (o : TriggerOutcome) (c : Channel) (s : State) :
    SameBut [.mem, .captures] s (takeTrigger o c s) := by simp

/-- R140: the trigger of the channel's first record that waits for it is taken, and answered in that record. -/
theorem exec_captureTrigger_of {front rest : List WaitingRecord} {w : WaitingRecord}
    (hwaiting : s.journal.waiting = front ++ w :: rest) (hsender : w.sender = .channel c)
    (hawaits : w.awaitsCapture = true) (hfront : ∀ v, v ∈ front → ¬(v.sender = .channel c ∧ v.awaitsCapture = true)) :
    exec (.captureTrigger c) s = .next ((takeTrigger (triggerOutcome s) c s).setJournal { s.journal with
      waiting := front ++ answerRecord (triggerOutcome s) w :: rest }) := by
  have hw : awaitsFrom c w = true := by simp [awaitsFrom, hsender, hawaits]
  have hout : ∀ v ∈ front, awaitsFrom c v = false := fun v hv => by
    have := hfront v hv
    simp only [awaitsFrom, Bool.and_eq_false_iff, beq_eq_false_iff_ne, ne_eq]
    by_cases hv' : v.awaitsCapture = true
    · exact .inr fun hs => this ⟨hs, hv'⟩
    · exact .inl (by simpa using hv')
  have hany : s.journal.waiting.any (awaitsFrom c) = true := by simp [hwaiting, hw]
  have hjournal : (takeTrigger (triggerOutcome s) c s).journal = s.journal :=
    takeTrigger_sameBut _ c s .journal (by simp)
  show execCaptureTrigger c s = _
  rw [execCaptureTrigger, if_pos hany]
  simp only [hjournal, hwaiting, changeFirst_append _ rest hw front hout]

/-! ## A buffer that is started (R142) -/

theorem startCapture_eq (b : BufferIx) (c : Channel) (s : State) :
    startCapture b c s = ((changeBuffer b ⟨.filling, 0, s.now, 1#4 <<< c.val⟩ s).write (0x3000 + 1536 * b.val)
      (preTriggerBytes s.scanner)).setCaptures
        { (changeBuffer b ⟨.filling, 0, s.now, 1#4 <<< c.val⟩ s).captures with
          postCounts := Vector.replicate 6 0 } := rfl

theorem flatMap_split {α β : Type} (l : List α) (f : α → List β) (i : Nat) (h : i < l.length) :
    l.flatMap f = (l.take i).flatMap f ++ (f l[i] ++ (l.drop (i + 1)).flatMap f) := by
  conv_lhs => rw [← List.take_append_drop i l, List.drop_eq_getElem_cons h]
  rw [List.flatMap_append, List.flatMap_cons]

/-- R15, section 11.4: where a pre-trigger sample stands. -/
theorem preTriggerBytes_split (sc : Scanner) (k : Fin 64) (j : CapturedIx) :
    ∃ front rest, preTriggerBytes sc = front ++ (numBytes 2 (ringSample (look sc.rings j) k.val) ++ rest)
      ∧ front.length = 12 * k.val + 2 * j.val := by
  have hk : k.val < (List.range 64).length := by simp
  have hj : j.val < (List.finRange 6).length := by simp
  have hsample : ∀ i, ((List.finRange 6).flatMap (fun j => numBytes 2 (ringSample (look sc.rings j) i))).length = 12 :=
    fun i => length_flatMap_const _ _ 2 fun j => length_numBytes 2 _
  refine ⟨((List.range 64).take k.val).flatMap (fun i =>
      (List.finRange 6).flatMap (fun j => numBytes 2 (ringSample (look sc.rings j) i)))
    ++ ((List.finRange 6).take j.val).flatMap (fun j => numBytes 2 (ringSample (look sc.rings j) k.val)),
    ((List.finRange 6).drop (j.val + 1)).flatMap (fun j => numBytes 2 (ringSample (look sc.rings j) k.val))
    ++ ((List.range 64).drop (k.val + 1)).flatMap (fun i =>
      (List.finRange 6).flatMap (fun j => numBytes 2 (ringSample (look sc.rings j) i))), ?_, ?_⟩
  · rw [preTriggerBytes, flatMap_split _ _ _ hk, List.getElem_range,
      flatMap_split (List.finRange 6) (fun j => numBytes 2 (ringSample (look sc.rings j) k.val)) _ hj]
    simp
  · rw [List.length_append, length_flatMap_const _ _ 12 hsample,
      length_flatMap_const _ _ 2 fun j => length_numBytes 2 _]
    simp
    omega

/-- R142, R143, R15: what a started buffer is, and what stands of it in common memory. -/
structure Started (b : BufferIx) (c : Channel) (s t : State) : Prop where
  buffer : t.buffer b = ⟨.filling, 0, s.now, 1#4 <<< c.val⟩
  others : ∀ a, a ≠ b → t.buffer a = s.buffer a
  postCounts : ∀ j, look t.captures.postCounts j = 0
  header : HeaderAt t.mem b ⟨.filling, 0, s.now, 1#4 <<< c.val⟩
  samples : ∀ (k : Fin 64) (j : CapturedIx),
    look (look s.scanner.rings j).slots ((look s.scanner.rings j).index + k) < 65536 →
    readNum t.mem (0x3000 + 1536 * b.val + 12 * k.val + 2 * j.val) 2
      = look (look s.scanner.rings j).slots ((look s.scanner.rings j).index + k)
  written : MemoryBut (fun a => headerBytes b a ∨ (0x3000 + 1536 * b.val ≤ a ∧ a < 0x3000 + 1536 * b.val + 768)) s t

theorem startCapture_started (b : BufferIx) (c : Channel) (s : State) : Started b c s (startCapture b c s) := by
  rw [startCapture_eq]
  refine ⟨changeBuffer_buffer_same _ _ _, fun a ha => changeBuffer_buffer_ne _ _ ha, fun j => look_replicate _ j,
    ?header, fun k j hsample => ?samples, fun a ha => ?written⟩
  case header =>
    refine (changeBuffer_headerAt b ⟨.filling, 0, s.now, 1#4 <<< c.val⟩ s).congr fun a ha => ?_
    have hb := b.isLt
    simp only [headerBytes, Config.captureHeaderBase] at ha
    show readByte (writeBytes _ _ _) a = _
    rw [readByte_writeBytes, if_neg (by omega)]
  case samples =>
    obtain ⟨front, rest, hbytes, hlength⟩ := preTriggerBytes_split s.scanner k j
    have hring : ringSample (look s.scanner.rings j) k.val
        = look (look s.scanner.rings j).slots ((look s.scanner.rings j).index + k) := rfl
    rw [← hring] at hsample ⊢
    exact readNum_written _ _ 2 _ _ _ front rest hbytes (by rw [hlength]; omega) hsample
  case written =>
    have hdata := (write_memoryBut (changeBuffer b ⟨.filling, 0, s.now, 1#4 <<< c.val⟩ s) (0x3000 + 1536 * b.val)
      (preTriggerBytes s.scanner)) a (by rw [length_preTriggerBytes]; exact fun h => ha (.inr h))
    exact hdata.trans (changeBuffer_memoryBut b _ s a fun h => ha (.inl h))

/-- R141: what a join leaves. -/
theorem joinCapture_spec (b : BufferIx) (c : Channel) (s : State) :
    (joinCapture b c s).buffer b = { s.buffer b with mask := (s.buffer b).mask ||| 1#4 <<< c.val }
    ∧ (∀ a, a ≠ b → (joinCapture b c s).buffer a = s.buffer a)
    ∧ (joinCapture b c s).captures.postCounts = s.captures.postCounts
    ∧ readNum (joinCapture b c s).mem (Config.captureHeaderBase + 32 * b.val + 2) 2
        = ((joinCapture b c s).buffer b).mask.toNat
    ∧ MemoryBut (headerBytes b) s (joinCapture b c s) := by
  unfold joinCapture
  generalize ({ s.buffer b with mask := (s.buffer b).mask ||| 1#4 <<< c.val } : CaptureBuffer) = x
  obtain ⟨-, hmask, -⟩ := changeBuffer_headerAt b x s
  exact ⟨changeBuffer_buffer_same b x s, fun a ha => changeBuffer_buffer_ne x s ha, rfl,
    by rw [changeBuffer_buffer_same]; exact hmask, changeBuffer_memoryBut b x s⟩

theorem toNat_channelBit : ∀ c : Channel, (1#4 <<< c.val).toNat = 2 ^ c.val := by decide

/-- Settles O51: by the outcome of the trigger. -/
theorem triggersAreTaken : Obligations.TriggersAreTaken := by
  intro s c front rest w hwaiting hsender hawaits hfront
  have hexec := exec_captureTrigger_of hwaiting hsender hawaits hfront
  refine ⟨fun hout => ?none, fun b henable hb honly => ?joins, fun henable hidle h => ?starts⟩
  case none =>
    rw [hexec, triggerOutcome_noCapture hout]
    rfl
  case joins =>
    rw [triggerOutcome_joins henable hb honly] at hexec
    exact ⟨_, hexec, rfl, joinCapture_spec b c s⟩
  case starts =>
    obtain ⟨b, houtcome, hfree, hready⟩ := triggerOutcome_starts henable hidle h
    rw [houtcome] at hexec
    have hstarted := startCapture_started b c s
    obtain ⟨hstate, hmask, hsequence, htime, -⟩ := hstarted.header
    exact ⟨_, b, hexec, hfree, hready, rfl, hstarted.buffer, hstarted.others, hstarted.postCounts, hstate,
      hmask.trans (toNat_channelBit c), hsequence, htime, hstarted.samples, hstarted.written⟩

end Sys2Proof.Machine


/-! Numbering (R164, R165): a sender's next record, and what taking it writes. -/

namespace Sys2Proof.Machine

variable {s t u : State} {b : BufferIx} {r : Record}

/-! ## What a record's number is handed on to (R143, R145) -/

/-- R164, steps 1 to 4: the record in its slot, and the header after it. -/
def recorded (r : Record) (s : State) : State :=
  writeJournalHeader ((s.write (Config.journalBase + 32 * s.journal.next.val)
    (recordBytes (nextSequence s.journal.newest) r)).setJournal
      { s.journal with newest := nextSequence s.journal.newest, next := s.journal.next + 1 })

theorem numberRecord_of_none (h : startedBuffer r = none) (s : State) : numberRecord r s = recorded r s := by
  simp only [numberRecord, h]
  rfl

theorem numberRecord_of_some (h : startedBuffer r = some b) (s : State) :
    numberRecord r s = writeTriggerSequence b (nextSequence s.journal.newest) (recorded r s) := by
  simp only [numberRecord, h]
  rfl

theorem recorded_buffer (r : Record) (s : State) (a : BufferIx) : (recorded r s).buffer a = s.buffer a := rfl

theorem recorded_memoryBut (r : Record) (s : State) :
    MemoryBut (fun a => journalSlotBytes s.journal.next a ∨ journalHeaderBytes a) s (recorded r s) := by
  have hslot := write_memoryBut s (Config.journalBase + 32 * s.journal.next.val)
    (recordBytes (nextSequence s.journal.newest) r)
  rw [length_recordBytes] at hslot
  have hheader := write_memoryBut ((s.write (Config.journalBase + 32 * s.journal.next.val)
    (recordBytes (nextSequence s.journal.newest) r)).setJournal
      { s.journal with newest := nextSequence s.journal.newest, next := s.journal.next + 1 }) Config.journalHeaderBase
      (numBytes 4 (nextSequence s.journal.newest).toNat ++ numBytes 2 (s.journal.next + 1).val ++ numBytes 26 0)
  intro a ha
  exact (hheader a fun h => ha (.inr (by simpa [journalHeaderBytes] using h))).trans (hslot a fun h => ha (.inl h))

theorem not_startsCapture_iff (r : Record) : ¬ StartsCapture r ↔ startedBuffer r = none := by
  rw [← startedBuffer_isSome]
  simp

theorem startedBuffer_of (hkind : r.kind = .strike ∨ r.kind = .lockout) (hjoined : r.joined = false)
    (hb : r.buffer = some b) : startedBuffer r = some b := by
  simp [startedBuffer, hkind, hjoined, hb]

/-- R143, R145: what a trigger sequence leaves, written into the one FILLING buffer. -/
structure Sequenced (b : BufferIx) (q : Seq) (s t : State) : Prop where
  buffer : t.buffer b = { s.buffer b with
    sequence := q, state := if (∀ j, look s.captures.postCounts j = 64) then .ready else .filling }
  others : ∀ a, a ≠ b → t.buffer a = s.buffer a
  postCounts : t.captures.postCounts = s.captures.postCounts
  header : readNum t.mem (Config.captureHeaderBase + 32 * b.val + 4) 4 = q.toNat
  written : MemoryBut (headerBytes b) s t

theorem writeTriggerSequence_sequenced {q : Seq} (hq : q ≠ 0) (hb : (s.buffer b).state = .filling)
    (honly : ∀ a, (s.buffer a).state = .filling → a = b) : Sequenced b q s (writeTriggerSequence b q s) := by
  unfold writeTriggerSequence
  have hheader := changeBuffer_headerAt b { s.buffer b with sequence := q } s
  have hsame := changeBuffer_buffer_same b { s.buffer b with sequence := q } s
  have hothers : ∀ a, a ≠ b → (changeBuffer b { s.buffer b with sequence := q } s).buffer a = s.buffer a :=
    fun a ha => changeBuffer_buffer_ne _ s ha
  have hwritten := changeBuffer_memoryBut b { s.buffer b with sequence := q } s
  have hcounts : (changeBuffer b { s.buffer b with sequence := q } s).captures.postCounts = s.captures.postCounts := rfl
  generalize changeBuffer b { s.buffer b with sequence := q } s = v at *
  have hfinished : Finished b v (finishFill v) := by
    refine finishFill_finished (by rw [hsame]; exact hb) fun a ha => ?_
    by_contra hne
    rw [hothers a hne] at ha
    exact hne (honly a ha)
  have hcomplete : (∀ j, look s.captures.postCounts j = 64) ↔ Complete b v := by
    rw [Complete, hcounts, hsame]
    exact ⟨fun h => ⟨h, hq⟩, fun h => h.1⟩
  have hbuffer := hfinished.buffer hcomplete
  rw [hsame] at hbuffer
  refine ⟨hbuffer, fun a ha => (hfinished.others a ha).trans (hothers a ha), hfinished.postCounts.trans hcounts, ?_,
    hwritten.trans (hfinished.written.mono fun _ h => h.2)⟩
  by_cases hready : ((finishFill v).buffer b).state = .ready
  · obtain ⟨-, -, hsequence, -⟩ := hfinished.header hready
    rw [hbuffer] at hsequence
    exact hsequence
  · obtain ⟨-, -, hsequence, -⟩ := hheader
    rw [hfinished.written.readNum _ _ fun _ _ h => hready h.1]
    exact hsequence

/-! ## Whose turn it is (R165) -/

theorem inTurn_iff (waiting : List WaitingRecord) (w : WaitingRecord) :
    inTurn waiting w = true ↔ w.awaitsCapture = false
      ∧ ∀ st, w.after = some st → ∀ v, v ∈ waiting → v.sender = st.sender → st.serial ≤ v.serial := by
  cases h : w.after with
  | none => simp [inTurn, h]
  | some st =>
    simp only [inTurn, h, Bool.and_eq_true, Bool.not_eq_true', List.all_eq_true, Bool.and_eq_false_iff,
      beq_eq_false_iff_ne, decide_eq_false_iff_not, Nat.not_lt, Option.some.injEq, forall_eq']
    refine and_congr_right fun _ => forall₂_congr fun v _ => ?_
    exact ⟨fun h hs => h.resolve_left (not_not_intro hs), fun h => or_iff_not_imp_left.mpr fun hs => h (not_not.mp hs)⟩

section
variable {front rest : List WaitingRecord} {w : WaitingRecord}

theorem find?_sender (hfront : ∀ v, v ∈ front → v.sender ≠ w.sender) :
    (front ++ w :: rest).find? (fun v => v.sender == w.sender) = some w := by
  rw [List.find?_append, List.find?_eq_none.mpr (by simpa using hfront)]
  simp

theorem eraseP_sender (hfront : ∀ v, v ∈ front → v.sender ≠ w.sender) :
    (front ++ w :: rest).eraseP (fun v => v.sender == w.sender) = front ++ rest := by
  rw [List.eraseP_append_right _ (by simpa using hfront)]
  simp

theorem exec_journalRecord_of (hphase : s.phase = .ready) (hwaiting : s.journal.waiting = front ++ w :: rest)
    (hfront : ∀ v, v ∈ front → v.sender ≠ w.sender) :
    exec (.journalRecord w.sender) s = if inTurn s.journal.waiting w = true
      then .next (numberRecord w.record (s.setJournal { s.journal with waiting := front ++ rest })) else .next s := by
  show execJournalRecord w.sender s = _
  unfold execJournalRecord
  have hfind : s.journal.waiting.find? (fun v => v.sender == w.sender) = some w := by
    rw [hwaiting, find?_sender hfront]
  have herase : s.journal.waiting.eraseP (fun v => v.sender == w.sender) = front ++ rest := by
    rw [hwaiting, eraseP_sender hfront]
  simp only [hphase, hfind, herase]

end

theorem exec_journalRecord_of_idle {sender : Sender}
    (h : s.phase ≠ .ready ∨ ∀ v, v ∈ s.journal.waiting → v.sender ≠ sender) :
    exec (.journalRecord sender) s = .next s := by
  show execJournalRecord sender s = _
  unfold execJournalRecord
  split
  · rename_i w hphase hfind
    rcases h with h | h
    · exact absurd hphase h
    · exact absurd (by simpa using List.find?_some hfind) (h w (List.mem_of_find?_eq_some hfind))
  · rfl

/-- Settles O52: by the phase, the sender's next record and its turn. -/
theorem recordsAreNumbered : Obligations.RecordsAreNumbered := by
  refine ⟨fun s sender h => exec_journalRecord_of_idle (.inl h), fun s sender h => exec_journalRecord_of_idle (.inr h),
    fun s front rest w hphase hwaiting hfront => ?_⟩
  have hexec := exec_journalRecord_of hphase hwaiting hfront
  refine ⟨inTurn_iff _ w, fun hout => by rw [hexec, if_neg (by simp [hout])], fun hturn => ?_⟩
  rw [if_pos hturn] at hexec
  generalize hu : s.setJournal { s.journal with waiting := front ++ rest } = u at hexec
  have hnewest : u.journal.newest = s.journal.newest := by rw [← hu]; rfl
  have hnext : u.journal.next = s.journal.next := by rw [← hu]; rfl
  have hmem : u.mem = s.mem := by rw [← hu]; rfl
  have hframe := numberRecord_frame w.record u
  obtain ⟨hsequence, hslot⟩ := numberRecord_header w.record u
  have hrecord := numberRecord_recordAt w.record u
  rw [hnewest] at hsequence hrecord
  rw [hnext] at hslot hrecord
  refine ⟨numberRecord w.record u, nextSequence s.journal.newest, hexec, rfl, ?frame, ?journal, hrecord, hsequence,
    hslot, fun hplain => ?plain, fun b hkind hjoined hb hst honly => ?starts⟩
  case frame => rw [hframe, ← hu]; rfl
  case journal => rw [hframe, ← hu]; rfl
  case plain =>
    rw [numberRecord_of_none ((not_startsCapture_iff _).mp hplain)]
    have hwritten := recorded_memoryBut w.record u
    rw [hnext] at hwritten
    exact ⟨by rw [← hu]; rfl, fun a ha => (hwritten a ha).trans (by rw [hmem])⟩
  case starts =>
    have hbuffer : ∀ a, (recorded w.record u).buffer a = s.buffer a := fun a => by rw [recorded_buffer, ← hu]; rfl
    have hcounts : (recorded w.record u).captures.postCounts = s.captures.postCounts := by rw [← hu]; rfl
    have hsequenced : Sequenced b (nextSequence s.journal.newest) (recorded w.record u) (numberRecord w.record u) := by
      rw [numberRecord_of_some (startedBuffer_of hkind hjoined hb), hnewest]
      exact writeTriggerSequence_sequenced (nextSequence_ne_zero _) (by rw [hbuffer]; exact hst)
        fun a ha => honly a (by rwa [hbuffer] at ha)
    obtain ⟨hfinal, hothers, hposts, hheader, hwritten⟩ := hsequenced
    rw [hbuffer] at hfinal
    refine ⟨?_, fun a ha => (hothers a ha).trans (hbuffer a), hposts.trans hcounts, hheader, fun a ha => ?_⟩
    · rw [hfinal, hcounts]
    · have hrecorded := recorded_memoryBut w.record u
      rw [hnext] at hrecorded
      rw [hwritten a fun h => ha (.inr (.inr h)), hrecorded a fun h => ha (h.imp_right .inl), hmem]

end Sys2Proof.Machine


/-! The status block (R168, R169): its fields, their copies, and a rewrite from its start to its end. -/

namespace Sys2Proof.Machine

variable {s t u : State} {k : Nat} {f g : StatusField} {done fields : List Nat}

/-! ## The fields stand one after another (section 11.4) -/

theorem length_statusFields (s : State) : (statusFields s).length = statusFieldCount := by
  simp [statusFields, channelFields, allChannels, statusFieldCount,
    length_flatMap_const (List.finRange 24) (positionFields s) 4 fun p => rfl]

/-- The fields stand one after another, between two offsets. -/
structure Spans (l : List StatusField) (lo hi : Nat) : Prop where
  ordered : l.Pairwise (fun f g => f.offset + f.size ≤ g.offset)
  within : ∀ f ∈ l, lo ≤ f.offset ∧ f.offset + f.size ≤ hi

theorem Spans.append {l m : List StatusField} {lo mid hi : Nat} (h : Spans l lo mid) (k : Spans m mid hi) (hlo : lo ≤ mid)
    (hhi : mid ≤ hi) : Spans (l ++ m) lo hi := by
  refine ⟨List.pairwise_append.mpr ⟨h.ordered, k.ordered, fun f hf g hg => ?_⟩, fun f hf => ?_⟩
  · exact Nat.le_trans (h.within f hf).2 (k.within g hg).1
  · rcases List.mem_append.mp hf with hf | hf
    · exact ⟨(h.within f hf).1, Nat.le_trans (h.within f hf).2 hhi⟩
    · exact ⟨Nat.le_trans hlo (k.within f hf).1, (k.within f hf).2⟩

/-- The records of a table, each in its own run of bytes. -/
theorem spans_flatMap {n : Nat} {l : List (Fin n)} (hl : l.Pairwise (· < ·)) {fs : Fin n → List StatusField}
    {base size : Nat} (h : ∀ i, Spans (fs i) (base + size * i.val) (base + size * i.val + size)) :
    Spans (l.flatMap fs) base (base + size * n) := by
  refine ⟨List.pairwise_flatMap.mpr ⟨fun i _ => (h i).ordered, hl.imp fun {i j} hij f hf g hg => ?_⟩, fun f hf => ?_⟩
  · have hi := ((h i).within f hf).2
    have hj := ((h j).within g hg).1
    have hstep : size * i.val + size ≤ size * j.val := by
      rw [← Nat.mul_succ]
      exact Nat.mul_le_mul_left _ hij
    omega
  · obtain ⟨i, -, hf⟩ := List.mem_flatMap.mp hf
    have hi := (h i).within f hf
    have hlast : size * i.val + size ≤ size * n := by
      rw [← Nat.mul_succ]
      exact Nat.mul_le_mul_left _ i.isLt
    omega

theorem pairwise_lt_finRange (n : Nat) : (List.finRange n).Pairwise (· < ·) := by
  simp [List.pairwise_iff_getElem]

/-- A table of one field to a record. -/
theorem spans_map {n : Nat} {base size : Nat} (value : Fin n → Nat) :
    Spans ((List.finRange n).map (fun i => ⟨base + size * i.val, size, value i⟩)) base (base + size * n) := by
  have h : Spans ((List.finRange n).flatMap (fun i => [⟨base + size * i.val, size, value i⟩])) base (base + size * n) :=
    spans_flatMap (pairwise_lt_finRange n) fun i => ⟨by simp, by simp⟩
  rwa [← List.map_eq_flatMap] at h

/-- Section 11.4: after the update count the fields fill the status area. -/
theorem spans_statusFields (s : State) : Spans (statusFields s) 0x004 0x1000 := by
  have hchannels : Spans (allChannels.flatMap (channelFields s)) 0x010 0x090 :=
    spans_flatMap (size := 32) (by decide) fun c =>
      ⟨by simp [channelFields], by simp only [channelFields, List.forall_mem_cons]; simp⟩
  have hpositions : Spans ((List.finRange 24).flatMap (positionFields s)) 0x090 0x0F0 :=
    spans_flatMap (size := 4) (pairwise_lt_finRange 24) fun p => ⟨by simp [positionFields], by simp [positionFields]⟩
  have hentries : Spans ((List.finRange 96).map (fun i => ⟨0x0F0 + i.val, 1, (s.entry i).state.code⟩)) 0x0F0 0x150 := by
    have h := spans_map (base := 0x0F0) (size := 1) fun i : EntryIx => (s.entry i).state.code
    simpa only [Nat.one_mul] using h
  have hpoints : Spans ((List.finRange 96).map (fun p => ⟨0x150 + 2 * p.val, 2, look s.scanner.latest p⟩)) 0x150 0x210 :=
    spans_map (size := 2) _
  have hfirst : Spans [⟨0x004, 4, s.now.toNat⟩, ⟨0x008, 1, flag s.evaluator.configured⟩,
      ⟨0x009, 1, flag s.scanner.interlockClosed⟩,
      ⟨0x00A, 1, ((List.finRange 8).map (fun l => flag (look s.scanner.arcAsserted l) * 2 ^ l.val)).sum⟩,
      ⟨0x00B, 5, 0⟩] 0x004 0x010 := ⟨by simp, by simp⟩
  have hlast : Spans [⟨0x210, Config.statusSize - 0x210, 0⟩] 0x210 0x1000 := ⟨by simp, by simp [Config.statusSize]⟩
  exact ((((hfirst.append hchannels (by decide) (by decide)).append hpositions (by decide) (by decide)).append hentries
    (by decide) (by decide)).append hpoints (by decide) (by decide)).append hlast (by decide) (by decide)

/-- The bytes of a field. -/
def fieldBytes (f : StatusField) (a : Nat) : Prop := 0x2000 + f.offset ≤ a ∧ a < 0x2000 + f.offset + f.size

theorem fieldBytes_in_area (hf : f ∈ statusFields s) {a : Nat} (ha : fieldBytes f a) : 0x2004 ≤ a ∧ a < 0x3000 := by
  have h := (spans_statusFields s).within f hf
  simp only [fieldBytes] at ha
  omega

/-- Two fields share no byte. -/
theorem fieldBytes_disjoint {j k : Nat} (hj : (statusFields s)[j]? = some f) (hk : (statusFields s)[k]? = some g)
    (hne : j ≠ k) {a : Nat} (ha : fieldBytes f a) : ¬ fieldBytes g a := by
  have hordered := List.pairwise_iff_getElem.mp (spans_statusFields s).ordered
  obtain ⟨hjlt, rfl⟩ := List.getElem?_eq_some_iff.mp hj
  obtain ⟨hklt, rfl⟩ := List.getElem?_eq_some_iff.mp hk
  simp only [fieldBytes] at ha ⊢
  rcases Nat.lt_or_gt_of_ne hne with h | h
  · have := hordered j k hjlt hklt h
    omega
  · have := hordered k j hklt hjlt h
    omega

/-! ## Copies (R169) -/

theorem copyField_of (hcopied : s.status.copied = some done) (hk : k ∉ done) (hf : (statusFields s)[k]? = some f) :
    copyField k s = (s.write (0x2000 + f.offset) (numBytes f.size f.value)).setStatus
      { s.status with copied := some (k :: done) } := by
  simp only [copyField, hcopied, hf]
  exact if_neg (by simpa using hk)

theorem copyField_of_done (hcopied : s.status.copied = some done) (hk : k ∈ done) : copyField k s = s := by
  unfold copyField
  split
  · rename_i d f hd _
    rw [hcopied] at hd
    cases hd
    exact if_pos (by simpa using hk)
  · rfl

theorem copyField_of_none (hf : (statusFields s)[k]? = none) : copyField k s = s := by
  unfold copyField
  split
  · rename_i hf'
    rw [hf] at hf'
    cases hf'
  · rfl

/-- What a run of copies leaves: `t` from `s`, the fields of `done` being copied before it. -/
structure Copied (s t : State) (done ks : List Nat) : Prop where
  frame : t = { s with mem := t.mem, status := { s.status with copied := t.status.copied } }
  going : t.status.copied.isSome = true
  kept : ∀ (k : Nat) (f : StatusField), (statusFields s)[k]? = some f → k ∈ done → ∀ a, fieldBytes f a →
    readByte t.mem a = readByte s.mem a
  value : ∀ (k : Nat) (f : StatusField), (statusFields s)[k]? = some f → k ∉ done → k ∈ ks →
    readNum t.mem (0x2000 + f.offset) f.size = f.value % 256 ^ f.size
  written : MemoryBut (fun a => 0x2004 ≤ a ∧ a < 0x3000) s t

theorem forEach_copyField : ∀ (ks : List Nat) (s : State) (done : List Nat), s.status.copied = some done →
    Copied s (forEach ks copyField s) done ks
  | [], s, done, hcopied =>
    ⟨rfl, by simp [forEach_nil, hcopied], fun _ _ _ _ _ _ => rfl, fun _ _ _ _ h => by simp at h, .refl _ _⟩
  | j :: ks, s, done, hcopied => by
    rw [forEach_cons]
    by_cases hj : j ∈ done
    · rw [copyField_of_done hcopied hj]
      have h := forEach_copyField ks s done hcopied
      refine ⟨h.frame, h.going, h.kept, fun k f hf hk hmem => h.value k f hf hk ?_, h.written⟩
      exact (List.mem_cons.mp hmem).resolve_left fun hkj => hk (hkj ▸ hj)
    · cases hg : (statusFields s)[j]? with
      | none =>
        rw [copyField_of_none hg]
        have h := forEach_copyField ks s done hcopied
        refine ⟨h.frame, h.going, h.kept, fun k f hf hk hmem => h.value k f hf hk ?_, h.written⟩
        exact (List.mem_cons.mp hmem).resolve_left fun hkj => by rw [hkj, hg] at hf; cases hf
      | some g =>
        rw [copyField_of hcopied hj hg]
        generalize hu : (s.write (0x2000 + g.offset) (numBytes g.size g.value)).setStatus
          { s.status with copied := some (j :: done) } = u
        have hfields : statusFields u = statusFields s := by rw [← hu]; rfl
        have hbyte : ∀ a, ¬ fieldBytes g a → readByte u.mem a = readByte s.mem a := fun a ha => by
          rw [← hu]
          refine (readByte_writeBytes _ _ _ _).trans (if_neg ?_)
          rwa [length_numBytes]
        have h := forEach_copyField ks u (j :: done) (by rw [← hu]; rfl)
        refine ⟨h.frame.trans ?frame, h.going, fun k f hf hk a ha => ?kept, fun k f hf hk hmem => ?value,
          fun a ha => ?written⟩
        case frame => rw [← hu]; rfl
        case kept =>
          rw [h.kept k f (hfields ▸ hf) (by simp [hk]) a ha]
          exact hbyte a (fieldBytes_disjoint hf hg (fun hkj => hj (hkj ▸ hk)) ha)
        case value =>
          by_cases hkj : k = j
          · subst hkj
            rw [hg] at hf
            cases hf
            rw [readNum_congr _ u.mem _ _ fun a hlow hhigh => h.kept k g (hfields ▸ hg) (by simp) a ⟨hlow, hhigh⟩,
              ← hu]
            exact readNum_writeBytes_same _ _ _ _
          · exact h.value k f (hfields ▸ hf) (by simp [hk, hkj]) ((List.mem_cons.mp hmem).resolve_left hkj)
        case written =>
          rw [h.written a ha]
          exact hbyte a fun hbytes => ha (fieldBytes_in_area (List.mem_of_getElem? hg) hbytes)

/-! ## A rewrite -/

theorem bumpUpdateCount_eq (s : State) : bumpUpdateCount s
    = (s.write 0x2000 (numBytes 4 (s.status.count + 1).toNat)).setStatus { s.status with count := s.status.count + 1 } :=
  rfl

/-- R168: the state as a rewrite starts. -/
def startRewrite (s : State) : State :=
  (bumpUpdateCount s).setStatus ⟨s.status.count + 1, s.now + 10, some []⟩

theorem exec_statusRewrite_of_going (hphase : s.phase = .ready) (hcopied : s.status.copied = some done)
    (fields : List Nat) : exec (.statusRewrite fields) s = .next (forEach fields copyField s) := by
  show execStatusRewrite fields s = _
  simp only [execStatusRewrite, hphase, hcopied]

theorem exec_statusRewrite_of_due (hphase : s.phase = .ready) (hcopied : s.status.copied = none)
    (hdue : (s.now - s.status.due).toNat < 2147483648) (fields : List Nat) :
    exec (.statusRewrite fields) s = .next (forEach fields copyField (startRewrite s)) := by
  show execStatusRewrite fields s = _
  simp only [execStatusRewrite, hphase, hcopied, reached_of_lt hdue, if_true]
  rfl

theorem exec_statusRewrite_of_early (hphase : s.phase = .ready) (hcopied : s.status.copied = none)
    (hearly : 2147483648 ≤ (s.now - s.status.due).toNat) (fields : List Nat) :
    exec (.statusRewrite fields) s = .next s := by
  show execStatusRewrite fields s = _
  simp [execStatusRewrite, hphase, hcopied, not_reached_of_le hearly]

/-- R168: the state as a rewrite ends. -/
def endRewrite (s : State) : State :=
  (bumpUpdateCount (forEach (List.range (statusFields s).length) copyField s)).setStatus
    { (bumpUpdateCount (forEach (List.range (statusFields s).length) copyField s)).status with copied := none }

theorem exec_statusRewriteEnd_of (hcopied : s.status.copied = some done) :
    exec .statusRewriteEnd s = .next (endRewrite s) := by
  show execStatusRewriteEnd s = _
  simp only [execStatusRewriteEnd, hcopied]
  rfl

/-- R168, R169: what the end of a rewrite leaves. -/
structure Rewritten (s t : State) (done : List Nat) : Prop where
  frame : t = { s with mem := t.mem, status := ⟨s.status.count + 1, s.status.due, none⟩ }
  written : MemoryBut (fun a => 0x2000 ≤ a ∧ a < 0x3000) s t
  count : readNum t.mem 0x2000 4 = (s.status.count + 1).toNat
  kept : ∀ (k : Nat) (f : StatusField), (statusFields s)[k]? = some f → k ∈ done → ∀ a, fieldBytes f a →
    readByte t.mem a = readByte s.mem a
  value : ∀ (k : Nat) (f : StatusField), (statusFields s)[k]? = some f → k ∉ done →
    readNum t.mem (0x2000 + f.offset) f.size = f.value % 256 ^ f.size

theorem endRewrite_rewritten (hcopied : s.status.copied = some done) : Rewritten s (endRewrite s) done := by
  have h := forEach_copyField (List.range (statusFields s).length) s done hcopied
  unfold endRewrite
  generalize forEach (List.range (statusFields s).length) copyField s = v at h
  have hcount : v.status.count = s.status.count := by rw [h.frame]
  have hdue : v.status.due = s.status.due := by rw [h.frame]
  have hmem : (bumpUpdateCount v).mem = writeBytes v.mem 0x2000 (numBytes 4 (s.status.count + 1).toNat) := by
    rw [bumpUpdateCount_eq, hcount]; rfl
  have hbyte : ∀ a, ¬ (0x2000 ≤ a ∧ a < 0x2004) → readByte (bumpUpdateCount v).mem a = readByte v.mem a := fun a ha => by
    rw [hmem, readByte_writeBytes, if_neg (by rwa [length_numBytes])]
  have hfield : ∀ (k : Nat) (f : StatusField), (statusFields s)[k]? = some f → ∀ a, fieldBytes f a →
      readByte (bumpUpdateCount v).mem a = readByte v.mem a := fun k f hf a ha =>
    hbyte a fun hlow => by have := fieldBytes_in_area (List.mem_of_getElem? hf) ha; omega
  refine ⟨?frame, fun a ha => ?written, ?count, fun k f hf hk a ha => ?kept, fun k f hf hk => ?value⟩
  case frame =>
    show ({ v with mem := (bumpUpdateCount v).mem, status := ⟨v.status.count + 1, v.status.due, none⟩ } : State)
      = { s with mem := (bumpUpdateCount v).mem, status := ⟨s.status.count + 1, s.status.due, none⟩ }
    generalize (bumpUpdateCount v).mem = m
    rw [hcount, hdue, h.frame]
  case written =>
    show readByte (bumpUpdateCount v).mem a = _
    rw [hbyte a fun hlow => ha (by omega), h.written a fun hin => ha (by omega)]
  case count =>
    show readNum (bumpUpdateCount v).mem 0x2000 4 = _
    rw [hmem, readNum_writeBytes_same]
    exact Nat.mod_eq_of_lt (s.status.count + 1).isLt
  case kept => exact (hfield k f hf a ha).trans (h.kept k f hf hk a ha)
  case value =>
    have hlt : k < (statusFields s).length := (List.getElem?_eq_some_iff.mp hf).1
    refine (readNum_congr _ v.mem _ _ fun a hlow hhigh => hfield k f hf a ⟨hlow, hhigh⟩).trans ?_
    exact h.value k f hf hk (List.mem_range.mpr hlt)

/-! ## The whole block (R169) -/

/-- A rewrite that has copied nothing before its end writes every field. -/
theorem Rewritten.read (h : Rewritten s t []) (hf : f ∈ statusFields s) {a v : Nat} (ha : a = 0x2000 + f.offset)
    (hv : f.value % 256 ^ f.size = v) : readNum t.mem a f.size = v := by
  obtain ⟨k, hk⟩ := List.getElem?_of_mem hf
  rw [ha, ← hv]
  exact h.value k f hk (by simp)

theorem flag_lt (b : Bool) : flag b < 256 := by cases b <;> decide

theorem flag_mod (b : Bool) : flag b % 256 ^ 1 = flag b := Nat.mod_eq_of_lt (flag_lt b)

theorem ChannelState.code_lt (st : ChannelState) : st.code < 256 := by cases st <;> decide

theorem PositionState.code_lt (st : PositionState) : st.code < 256 := by cases st <;> decide

theorem EntryState.code_lt (st : EntryState) : st.code < 256 := by cases st <;> decide

theorem Source.code_lt (x : Source) : x.code < 256 := by cases x <;> decide

theorem testBit_flagSum : ∀ (b0 b1 b2 b3 b4 b5 b6 b7 : Bool) (l : Fin 8),
    ((flag b0 * 2 ^ 0 + (flag b1 * 2 ^ 1 + (flag b2 * 2 ^ 2 + (flag b3 * 2 ^ 3 + (flag b4 * 2 ^ 4 + (flag b5 * 2 ^ 5
      + (flag b6 * 2 ^ 6 + (flag b7 * 2 ^ 7 + 0)))))))) % 256 ^ 1).testBit l.val
      = [b0, b1, b2, b3, b4, b5, b6, b7].getD l.val false := by decide

/-- R169: the arc lines, one to a bit. -/
theorem testBit_arcLines (arcs : Vector Bool 8) (l : ArcLine) :
    (((List.finRange 8).map (fun i => flag (look arcs i) * 2 ^ i.val)).sum % 256 ^ 1).testBit l.val = look arcs l := by
  refine (testBit_flagSum (look arcs 0) (look arcs 1) (look arcs 2) (look arcs 3) (look arcs 4) (look arcs 5)
    (look arcs 6) (look arcs 7) l).trans ?_
  match l with
  | 0 | 1 | 2 | 3 | 4 | 5 | 6 | 7 => rfl

theorem mem_statusFields_channel {c : Channel} (h : f ∈ channelFields s c) : f ∈ statusFields s := by
  simp only [statusFields, List.mem_append, List.mem_flatMap]
  exact .inl (.inl (.inl (.inl (.inr ⟨c, mem_allChannels c, h⟩))))

theorem mem_statusFields_position {p : PositionIx} (h : f ∈ positionFields s p) : f ∈ statusFields s := by
  simp only [statusFields, List.mem_append, List.mem_flatMap]
  exact .inl (.inl (.inl (.inr ⟨p, List.mem_finRange p, h⟩)))

theorem mem_statusFields_entry (s : State) (i : EntryIx) :
    ⟨0x0F0 + i.val, 1, (s.entry i).state.code⟩ ∈ statusFields s := by
  simp only [statusFields, List.mem_append, List.mem_map]
  exact .inl (.inl (.inr ⟨i, List.mem_finRange i, rfl⟩))

theorem mem_statusFields_point (s : State) (q : Point) :
    ⟨0x150 + 2 * q.val, 2, look s.scanner.latest q⟩ ∈ statusFields s := by
  simp only [statusFields, List.mem_append, List.mem_map]
  exact .inl (.inr ⟨q, List.mem_finRange q, rfl⟩)

/-- R169, section 11.4: a channel's record in the status block. -/
theorem Rewritten.channel (h : Rewritten s t []) (c : Channel) :
    readNum t.mem (0x2010 + 32 * c.val) 1 = (s.chan c).state.code
    ∧ readNum t.mem (0x2010 + 32 * c.val + 0x01) 1 = (s.resolver c).governing.code
    ∧ readNum t.mem (0x2010 + 32 * c.val + 0x02) 1 = flag (s.monitor c).present
    ∧ readNum t.mem (0x2010 + 32 * c.val + 0x03) 1 = (s.strike c).times.length % 256
    ∧ readNum t.mem (0x2010 + 32 * c.val + 0x04) 2 = levelOrNone (s.resolver c).target % 65536
    ∧ readNum t.mem (0x2010 + 32 * c.val + 0x06) 2 = levelOrNone (s.resolver c).positions % 65536
    ∧ readNum t.mem (0x2010 + 32 * c.val + 0x08) 2 = levelOrNone (s.resolver c).foldback % 65536
    ∧ readNum t.mem (0x2010 + 32 * c.val + 0x0A) 2 = levelOrNone (s.resolver c).ramp % 65536
    ∧ readNum t.mem (0x2010 + 32 * c.val + 0x0C) 2 = (s.resolver c).resolved % 65536
    ∧ readNum t.mem (0x2010 + 32 * c.val + 0x0E) 2 = (s.resolver c).drive % 65536
    ∧ readNum t.mem (0x2010 + 32 * c.val + 0x10) 2 = (s.resolver c).activeSet.length % 65536
    ∧ readNum t.mem (0x2010 + 32 * c.val + 0x12) 2 = (s.strike c).number.toNat
    ∧ readNum t.mem (0x2010 + 32 * c.val + 0x14) 4 = (s.monitor c).realMarks.toNat := by
  have hread : ∀ (offset size value v : Nat), ⟨0x010 + 32 * c.val + offset, size, value⟩ ∈ channelFields s c →
      value % 256 ^ size = v → readNum t.mem (0x2010 + 32 * c.val + offset) size = v := fun offset size value v hf hv =>
    h.read (f := ⟨0x010 + 32 * c.val + offset, size, value⟩) (mem_statusFields_channel hf) (by simp only []; omega) hv
  refine ⟨hread 0 1 _ _ ?_ (Nat.mod_eq_of_lt (s.chan c).state.code_lt),
    hread 0x01 1 _ _ ?_ (Nat.mod_eq_of_lt (Source.code_lt _)), hread 0x02 1 _ _ ?_ (flag_mod _), hread 0x03 1 _ _ ?_ rfl,
    hread 0x04 2 _ _ ?_ rfl, hread 0x06 2 _ _ ?_ rfl, hread 0x08 2 _ _ ?_ rfl, hread 0x0A 2 _ _ ?_ rfl,
    hread 0x0C 2 _ _ ?_ rfl, hread 0x0E 2 _ _ ?_ rfl, hread 0x10 2 _ _ ?_ rfl,
    hread 0x12 2 _ _ ?_ (word_toNat_mod _), hread 0x14 4 _ _ ?_ (Nat.mod_eq_of_lt (s.monitor c).realMarks.isLt)⟩
  all_goals simp [channelFields]

/-- R169, section 11.4: a position's record in the status block. -/
theorem Rewritten.position (h : Rewritten s t []) (p : PositionIx) :
    readNum t.mem (0x2090 + 4 * p.val) 1 = (s.position p).state.code
    ∧ readNum t.mem (0x2090 + 4 * p.val + 1) 1 = (s.position p).identity.toNat
    ∧ readNum t.mem (0x2090 + 4 * p.val + 2) 1 = flag (s.position p).bias := by
  have hread : ∀ (offset value v : Nat), ⟨0x090 + 4 * p.val + offset, 1, value⟩ ∈ positionFields s p →
      value % 256 ^ 1 = v → readNum t.mem (0x2090 + 4 * p.val + offset) 1 = v := fun offset value v hf hv =>
    h.read (f := ⟨0x090 + 4 * p.val + offset, 1, value⟩) (mem_statusFields_position hf) (by simp only []; omega) hv
  refine ⟨hread 0 _ _ ?_ (Nat.mod_eq_of_lt (s.position p).state.code_lt),
    hread 1 _ _ ?_ (Nat.mod_eq_of_lt (s.position p).identity.isLt), hread 2 _ _ ?_ (flag_mod _)⟩
  all_goals simp [positionFields]

/-- Settles O53: by whether a rewrite is in progress or due. -/
theorem statusBlockIsRewritten : Obligations.StatusBlockIsRewritten := by
  intro s
  refine ⟨fun hphase hcopied hdue => ⟨_, exec_statusRewrite_of_due hphase hcopied hdue [], rfl, ?count, ?written⟩,
    fun fields hphase hcopied hearly => exec_statusRewrite_of_early hphase hcopied hearly fields,
    fun fields hphase hcopied hdue => ⟨_, exec_statusRewrite_of_due hphase hcopied hdue [],
      (exec_statusRewrite_of_due hphase hcopied hdue fields).trans
        (exec_statusRewrite_of_going (s := startRewrite s) hphase rfl fields).symm⟩,
    fun k rest done hphase hcopied => ⟨_, exec_statusRewrite_of_going hphase hcopied [k], ?goesOn, ?idle⟩,
    fun k done f hphase hcopied hk hf => ⟨_, exec_statusRewrite_of_going hphase hcopied [k], ?one⟩,
    fun done hcopied => ?ends, fun hcopied => ?none, fun hcopied => ?whole⟩
  case count =>
    exact (readNum_writeBytes_same _ _ _ _).trans (Nat.mod_eq_of_lt (s.status.count + 1).isLt)
  case written => exact (write_memoryBut s 0x2000 (numBytes 4 (s.status.count + 1).toNat)).mono fun a h => by simpa using h
  case goesOn =>
    have hone := forEach_copyField [k] s done hcopied
    obtain ⟨copied, hgoing⟩ := Option.isSome_iff_exists.mp hone.going
    have hready : (forEach [k] copyField s).phase = .ready := by rw [hone.frame]; exact hphase
    rw [exec_statusRewrite_of_going hphase hcopied, exec_statusRewrite_of_going hready hgoing]
    rfl
  case idle =>
    rintro (hk | hk)
    · exact copyField_of_done hcopied hk
    · exact copyField_of_none (List.getElem?_eq_none (by rwa [length_statusFields]))
  case one =>
    have hone : forEach [k] copyField s = (s.write (0x2000 + f.offset) (numBytes f.size f.value)).setStatus
        { s.status with copied := some (k :: done) } := copyField_of hcopied hk hf
    rw [hone]
    exact ⟨rfl, readNum_writeBytes_same _ _ _ _,
      (write_memoryBut s (0x2000 + f.offset) (numBytes f.size f.value)).mono fun a h => by simpa using h⟩
  case ends =>
    have h := endRewrite_rewritten hcopied
    exact ⟨_, exec_statusRewriteEnd_of hcopied, h.frame, h.written, h.count, fun k f hf =>
      ⟨fun hk a hlow hhigh => h.kept k f hf hk a ⟨hlow, hhigh⟩, fun hk => h.value k f hf hk⟩⟩
  case none =>
    show execStatusRewriteEnd s = _
    simp [execStatusRewriteEnd, hcopied]
  case whole =>
    have h := endRewrite_rewritten hcopied
    refine ⟨_, exec_statusRewriteEnd_of hcopied, h.frame, h.written, h.count,
      h.read (f := ⟨0x004, 4, s.now.toNat⟩) (by simp [statusFields]) rfl (Nat.mod_eq_of_lt s.now.isLt),
      h.read (f := ⟨0x008, 1, flag s.evaluator.configured⟩) (by simp [statusFields]) rfl (flag_mod _),
      h.read (f := ⟨0x009, 1, flag s.scanner.interlockClosed⟩) (by simp [statusFields]) rfl (flag_mod _),
      fun l => ?arcs, h.channel, h.position, fun i => ?entry, fun q => ?point⟩
    case arcs =>
      have harcs := h.read (a := 0x200A)
        (f := ⟨0x00A, 1, ((List.finRange 8).map (fun i => flag (look s.scanner.arcAsserted i) * 2 ^ i.val)).sum⟩)
        (by simp [statusFields]) rfl rfl
      exact (congrArg (fun x => x.testBit l.val) harcs).trans (testBit_arcLines s.scanner.arcAsserted l)
    case entry =>
      exact h.read (mem_statusFields_entry s i) (by simp only []; omega) (Nat.mod_eq_of_lt (s.entry i).state.code_lt)
    case point => exact h.read (mem_statusFields_point s q) (by simp only []; omega) rfl

end Sys2Proof.Machine


/-! Initialization's writes (R161): the six areas, and what each holds once it is written. -/

namespace Sys2Proof.Machine

variable {s t u : State} {m m' : Memory} {area : InitArea}

/-! ## The areas share no byte -/

/-- The area that an address lies in. -/
def areaAt (a : Nat) : Option InitArea :=
  if a < 0x0040 then some .identity
  else if a < 0x00A0 then some .journal
  else if a < 0x00A4 then some .release
  else if a < 0x0100 then some .confirmations
  else if a < 0x0500 then some .slots
  else if a < 0x0E00 then some .journal
  else some .captures

theorem areaAt_of_areaBytes {a : Nat} (h : areaBytes area a) : areaAt a = some area := by
  unfold areaAt
  cases area with
  | slots =>
    obtain ⟨k, hlow, hhigh⟩ := h
    have hk := k.isLt
    simp only [slotAddress, Config.slotBase] at hlow hhigh
    rw [if_neg (by omega), if_neg (by omega), if_neg (by omega), if_neg (by omega), if_pos (by omega)]
  | release =>
    obtain ⟨hlow, hhigh⟩ := h
    rw [if_neg (by omega), if_neg (by omega), if_pos hhigh]
  | journal =>
    rcases h with ⟨hlow, hhigh⟩ | ⟨hlow, hhigh⟩
    · rw [if_neg (by omega), if_pos hhigh]
    · rw [if_neg (by omega), if_neg (by omega), if_neg (by omega), if_neg (by omega), if_neg (by omega), if_pos hhigh]
  | confirmations =>
    obtain ⟨hlow, hhigh⟩ := h
    rw [if_neg (by omega), if_neg (by omega), if_neg (by omega), if_pos hhigh]
  | captures =>
    have hlow : 0x0E00 ≤ a := by rcases h with ⟨hlow, -⟩ | ⟨hlow, -⟩ <;> omega
    rw [if_neg (by omega), if_neg (by omega), if_neg (by omega), if_neg (by omega), if_neg (by omega),
      if_neg (by omega)]
  | identity =>
    simp only [areaBytes] at h
    exact if_pos h

theorem eq_of_areaBytes {x y : InitArea} {a : Nat} (hx : areaBytes x a) (hy : areaBytes y a) : x = y :=
  Option.some.inj ((areaAt_of_areaBytes hx).symm.trans (areaAt_of_areaBytes hy))

/-! ## What an area holds depends on its bytes, and on the block that owns it -/

theorem AreaWritten.of_owner (h : AreaWritten area s m) (hjournal : t.journal = s.journal)
    (hstrikes : t.strikes = s.strikes) (hcaptures : t.captures = s.captures) : AreaWritten area t m := by
  have hstrike : ∀ c, t.strike c = s.strike c := fun c => by rw [State.strike, hstrikes]; rfl
  have hbuffer : ∀ b, t.buffer b = s.buffer b := fun b => by rw [State.buffer, hcaptures]; rfl
  cases area with
  | slots | release | identity => exact h
  | journal => simpa only [AreaWritten, hjournal] using h
  | confirmations => simpa only [AreaWritten, hstrike] using h
  | captures => simpa only [AreaWritten, hbuffer] using h

theorem areaWritten_captures_iff (s : State) (m : Memory) : AreaWritten .captures s m
    ↔ (∀ b, HeaderAt m b (s.buffer b)) ∧ ∀ a, 0x3000 ≤ a → a < 0x4800 → readByte m a = 0 := Iff.rfl

theorem AreaWritten.congr (h : AreaWritten area s m) (hm : ∀ a, areaBytes area a → readByte m' a = readByte m a) :
    AreaWritten area s m' := by
  have hnum : ∀ a n, (∀ x, a ≤ x → x < a + n → areaBytes area x) → readNum m' a n = readNum m a n :=
    fun a n hin => readNum_congr _ _ _ _ fun x hlow hhigh => hm x (hin x hlow hhigh)
  cases area with
  | slots => exact fun k => (hnum _ _ fun x hlow hhigh => ⟨k, hlow, hhigh⟩).trans (h k)
  | release => exact (hnum _ _ fun x hlow hhigh => ⟨hlow, hhigh⟩).trans h
  | journal =>
    obtain ⟨hnewest, hnext, hrest⟩ := h
    refine ⟨(hnum _ _ fun x hlow hhigh => .inl (by omega)).trans hnewest,
      (hnum _ _ fun x hlow hhigh => .inl (by omega)).trans hnext, fun a ha => (hm a ?_).trans (hrest a ha)⟩
    rcases ha with ha | ha
    · exact .inl (by omega)
    · exact .inr ha
  | confirmations =>
    intro c
    have hc := c.isLt
    have hin : ∀ a n, 0x00C0 ≤ a → a + n ≤ 0x0100 → readNum m' a n = readNum m a n := fun a n h1 h2 =>
      hnum a n fun x hlow hhigh => ⟨by omega, by omega⟩
    obtain ⟨h1, h2, h3, h4, h5, h6⟩ := h c
    exact ⟨(hin _ _ (by omega) (by omega)).trans h1, (hin _ _ (by omega) (by omega)).trans h2,
      (hin _ _ (by omega) (by omega)).trans h3, (hin _ _ (by omega) (by omega)).trans h4,
      (hin _ _ (by omega) (by omega)).trans h5, (hin _ _ (by omega) (by omega)).trans h6⟩
  | captures =>
    obtain ⟨hheader, hdata⟩ := h
    refine ⟨fun b => HeaderAt.congr (x := s.buffer b) (hheader b) fun a ha => hm a ?_,
      fun a h1 h2 => (hm a (.inr ⟨h1, h2⟩)).trans (hdata a h1 h2)⟩
    have hb := b.isLt
    simp only [headerBytes, Config.captureHeaderBase] at ha
    exact .inl (by omega)
  | identity =>
    obtain ⟨hfields, hrest⟩ := h
    refine ⟨(List.map_congr_left fun k hk => ?_).trans hfields, fun a h1 h2 => (hm a h2).trans (hrest a h1 h2)⟩
    have hk := List.mem_range.mp hk
    exact hnum _ _ fun x hlow hhigh => by simp only [areaBytes]; omega

/-! ## Records written one after another -/

/-- Records in places that share no byte: each stands as if it alone had been written. -/
theorem forEach_write {α : Type} {f : α → State → State} {place : α → Nat} {bytes : α → List Byte}
    (hf : ∀ x m, f x (s.setMem m) = (s.setMem m).write (place x) (bytes x))
    (hapart : ∀ x y, x ≠ y → place x + (bytes x).length ≤ place y ∨ place y + (bytes y).length ≤ place x) :
    ∀ (l : List α) (m : Memory), l.Nodup →
      (∀ x ∈ l, ∀ n a, place x ≤ a → a < place x + (bytes x).length →
        readByte (forEach l f (s.setMem m)).mem a = readByte (writeBytes n (place x) (bytes x)) a)
      ∧ ∀ a, (∀ x ∈ l, ¬(place x ≤ a ∧ a < place x + (bytes x).length)) →
        readByte (forEach l f (s.setMem m)).mem a = readByte m a
  | [], m, _ => ⟨by simp, fun a _ => rfl⟩
  | x :: l, m, hl => by
    obtain ⟨hx, hl⟩ := List.nodup_cons.mp hl
    have hstep : forEach (x :: l) f (s.setMem m) = forEach l f (s.setMem (writeBytes m (place x) (bytes x))) := by
      rw [forEach_cons, hf]; rfl
    obtain ⟨hin, hout⟩ := forEach_write hf hapart l (writeBytes m (place x) (bytes x)) hl
    rw [hstep]
    refine ⟨fun y hy n a hlow hhigh => ?_, fun a ha => ?_⟩
    · by_cases hyx : y = x
      · subst hyx
        rw [hout a fun z hz hbytes => ?_, readByte_writeBytes, readByte_writeBytes, if_pos ⟨hlow, hhigh⟩,
          if_pos ⟨hlow, hhigh⟩]
        rcases hapart y z (fun h => hx (h ▸ hz)) with h | h <;> omega
      · exact hin y ((List.mem_cons.mp hy).resolve_left hyx) n a hlow hhigh
    · rw [hout a fun z hz => ha z (by simp [hz]), readByte_writeBytes, if_neg (ha x (by simp))]

theorem setMem_mem_self (s : State) : s.setMem s.mem = s := rfl

/-! ## Each area, once written -/

/-- Section 11.4: the bytes of a confirmation record. -/
def confirmationRecord (c : Channel) (r : StrikeAccounting) : List Byte :=
  numBytes 2 (flag r.pending) ++ numBytes 2 c.val ++ numBytes 2 r.number.toNat ++ numBytes 2 r.count
    ++ numBytes 4 r.posted.toNat ++ numBytes 4 r.deadline.toNat

theorem length_confirmationRecord (c : Channel) (r : StrikeAccounting) : (confirmationRecord c r).length = 16 := by
  simp [confirmationRecord]

theorem confirmationRecord_written (m : Memory) (c : Channel) (r : StrikeAccounting) :
    let n := writeBytes m (0x00C0 + 16 * c.val) (confirmationRecord c r)
    readNum n (0x00C0 + 16 * c.val) 2 = flag r.pending ∧ readNum n (0x00C0 + 16 * c.val + 2) 2 = c.val
    ∧ readNum n (0x00C0 + 16 * c.val + 4) 2 = r.number.toNat ∧ readNum n (0x00C0 + 16 * c.val + 6) 2 = r.count % 65536
    ∧ readNum n (0x00C0 + 16 * c.val + 8) 4 = r.posted.toNat
    ∧ readNum n (0x00C0 + 16 * c.val + 12) 4 = r.deadline.toNat := by
  have hflag : flag r.pending < 256 ^ 2 := Nat.lt_trans (flag_lt _) (by decide)
  have hc : c.val < 256 ^ 2 := Nat.lt_trans c.isLt (by decide)
  refine ⟨readNum_written _ _ 2 _ _ _ [] (numBytes 2 c.val ++ numBytes 2 r.number.toNat ++ numBytes 2 r.count
      ++ numBytes 4 r.posted.toNat ++ numBytes 4 r.deadline.toNat) (by simp [confirmationRecord]) (by simp) hflag,
    readNum_written _ _ 2 _ _ _ (numBytes 2 (flag r.pending)) (numBytes 2 r.number.toNat ++ numBytes 2 r.count
      ++ numBytes 4 r.posted.toNat ++ numBytes 4 r.deadline.toNat) (by simp [confirmationRecord]) (by simp) hc,
    readNum_written _ _ 2 _ _ _ (numBytes 2 (flag r.pending) ++ numBytes 2 c.val) (numBytes 2 r.count
      ++ numBytes 4 r.posted.toNat ++ numBytes 4 r.deadline.toNat) (by simp [confirmationRecord]) (by simp)
      r.number.isLt, ?_,
    readNum_written _ _ 4 _ _ _ (numBytes 2 (flag r.pending) ++ numBytes 2 c.val ++ numBytes 2 r.number.toNat
      ++ numBytes 2 r.count) (numBytes 4 r.deadline.toNat) (by simp [confirmationRecord]) (by simp) r.posted.isLt,
    readNum_written _ _ 4 _ _ _ (numBytes 2 (flag r.pending) ++ numBytes 2 c.val ++ numBytes 2 r.number.toNat
      ++ numBytes 2 r.count ++ numBytes 4 r.posted.toNat) [] (by simp [confirmationRecord]) (by simp) r.deadline.isLt⟩
  have hbytes : confirmationRecord c r = (numBytes 2 (flag r.pending) ++ numBytes 2 c.val ++ numBytes 2 r.number.toNat)
      ++ numBytes 2 r.count ++ (numBytes 4 r.posted.toNat ++ numBytes 4 r.deadline.toNat) := by
    simp [confirmationRecord]
  rw [hbytes]
  exact readNum_writeBytes_at _ _ 2 _ _ _ _ (by simp)

/-- What writing an area does. -/
structure AreaDone (area : InitArea) (s t : State) : Prop where
  holds : AreaWritten area s t.mem
  written : MemoryBut (areaBytes area) s t

theorem slotAddress_apart {j k : SlotIx} (h : j ≠ k) : slotAddress j + 2 ≤ slotAddress k ∨ slotAddress k + 2 ≤ slotAddress j := by
  have := Fin.val_ne_of_ne h
  simp only [slotAddress]
  omega

theorem readNum_zeros (m : Memory) (a n : Nat) : readNum (writeBytes m a (numBytes n 0)) a n = 0 := by
  rw [readNum_writeBytes_same, Nat.zero_mod]

theorem writeArea_slots (s : State) : AreaDone .slots s (writeArea .slots s) := by
  have hwrite := forEach_write (s := s) (f := fun k s => s.write (slotAddress k) (numBytes 2 0)) (place := slotAddress)
    (bytes := fun _ => numBytes 2 0) (fun _ _ => rfl) (fun j k h => by simpa using slotAddress_apart h)
    (List.finRange 16) s.mem (List.nodup_finRange 16)
  rw [setMem_mem_self] at hwrite
  obtain ⟨hin, hout⟩ := hwrite
  refine ⟨fun k => ?_, fun a ha => hout a fun k _ hk => ha ⟨k, by simpa using hk⟩⟩
  refine (readNum_congr _ _ _ _ fun x hlow hhigh => hin k (List.mem_finRange k) s.mem x hlow ?_).trans
    (readNum_zeros s.mem _ _)
  rwa [length_numBytes]

theorem writeArea_release (s : State) : AreaDone .release s (writeArea .release s) :=
  ⟨readNum_zeros s.mem _ _, (write_memoryBut s 0x00A0 (numBytes 4 0)).mono fun a h => by simpa [areaBytes] using h⟩

theorem writeArea_journal (s : State) : AreaDone .journal s (writeArea .journal s) := by
  have hmem : (writeArea .journal s).mem = writeBytes (zeroRange s.mem 0x0600 2048) 0x0080
      (numBytes 4 s.journal.newest.toNat ++ numBytes 2 s.journal.next.val ++ numBytes 26 0) := rfl
  have hbyte : ∀ a, ¬(0x0080 ≤ a ∧ a < 0x00A0) → readByte (writeArea .journal s).mem a
      = if 0x0600 ≤ a ∧ a < 0x0E00 then 0 else readByte s.mem a := fun a ha => by
    rw [hmem, readByte_writeBytes, if_neg (by simpa using ha), readByte_zeroRange]
  have hnext : s.journal.next.val < 256 ^ 2 := Nat.lt_trans s.journal.next.isLt (by decide)
  refine ⟨⟨?newest, ?next, fun a ha => ?rest⟩, fun a ha => ?written⟩
  case newest =>
    rw [hmem]
    exact readNum_written _ _ 4 _ _ _ [] (numBytes 2 s.journal.next.val ++ numBytes 26 0) (by simp) (by simp)
      s.journal.newest.isLt
  case next =>
    rw [hmem]
    exact readNum_written _ _ 2 _ _ _ (numBytes 4 s.journal.newest.toNat) (numBytes 26 0) (by simp) (by simp) hnext
  case rest =>
    rcases ha with ⟨hlow, hhigh⟩ | hin
    · rw [hmem, readByte_writeBytes, if_pos (by simp; omega), numBytes_zero,
        List.getD_append_right _ _ _ _ (by simp; omega), List.getD_eq_getElem?_getD]
      exact List.getElem?_getD_replicate_default_eq _ _ _
    · rw [hbyte a (by omega), if_pos hin]
  case written => rw [hbyte a fun h => ha (.inl h), if_neg fun h => ha (.inr h)]

theorem writeArea_confirmations (s : State) : AreaDone .confirmations s (writeArea .confirmations s) := by
  have hwrite := forEach_write (s := s) (f := writeConfirmation) (place := fun c : Channel => 0x00C0 + 16 * c.val)
    (bytes := fun c => confirmationRecord c (s.strike c)) (fun _ _ => rfl)
    (fun c d h => by have := Fin.val_ne_of_ne h; simp only [length_confirmationRecord]; omega)
    allChannels s.mem allChannels_nodup
  rw [setMem_mem_self] at hwrite
  obtain ⟨hin, hout⟩ := hwrite
  simp only [length_confirmationRecord] at hin hout
  refine ⟨fun c => ?_, fun a ha => hout a fun c _ hc => ha ?_⟩
  · have hnum : ∀ a n, 0x00C0 + 16 * c.val ≤ a → a + n ≤ 0x00C0 + 16 * c.val + 16 →
        readNum (writeArea .confirmations s).mem a n
          = readNum (writeBytes s.mem (0x00C0 + 16 * c.val) (confirmationRecord c (s.strike c))) a n := fun a n h1 h2 =>
      readNum_congr _ _ _ _ fun x hlow hhigh => hin c (mem_allChannels c) s.mem x (by omega) (by omega)
    obtain ⟨h1, h2, h3, h4, h5, h6⟩ := confirmationRecord_written s.mem c (s.strike c)
    exact ⟨(hnum _ _ (by omega) (by omega)).trans h1, (hnum _ _ (by omega) (by omega)).trans h2,
      (hnum _ _ (by omega) (by omega)).trans h3, (hnum _ _ (by omega) (by omega)).trans h4,
      (hnum _ _ (by omega) (by omega)).trans h5, (hnum _ _ (by omega) (by omega)).trans h6⟩
  · have := c.isLt
    exact ⟨by omega, by omega⟩

theorem writeArea_captures (s : State) : AreaDone .captures s (writeArea .captures s) := by
  obtain ⟨hin, hout⟩ := forEach_write (s := s) (f := writeCaptureHeader)
    (place := fun b : BufferIx => 0x0E00 + 32 * b.val) (bytes := fun b => captureHeader (s.buffer b)) (fun _ _ => rfl)
    (fun b d h => by have := Fin.val_ne_of_ne h; simp only [length_captureHeader]; omega)
    (List.finRange 4) (zeroRange s.mem 0x3000 6144) (List.nodup_finRange 4)
  simp only [length_captureHeader] at hin hout
  have hbyte : ∀ a, ¬(0x0E00 ≤ a ∧ a < 0x0E80) → readByte (writeArea .captures s).mem a
      = if 0x3000 ≤ a ∧ a < 0x4800 then 0 else readByte s.mem a := fun a ha =>
    (hout a fun b _ hb => ha (by omega)).trans (readByte_zeroRange _ _ _ _)
  refine ⟨⟨fun b => ?_, fun a h1 h2 => by rw [hbyte a (by omega), if_pos ⟨h1, h2⟩]⟩, fun a ha => ?_⟩
  · exact (headerAt_written s.mem b (s.buffer b)).congr fun a ha => hin b (List.mem_finRange b) s.mem a ha.1 ha.2
  · rw [hbyte a fun h => ha (.inl h), if_neg fun h => ha (.inr h)]

theorem writeArea_identity (s : State) : AreaDone .identity s (writeArea .identity s) := by
  have hmem : (writeArea .identity s).mem
      = writeBytes s.mem 0 (Config.identityFields.flatMap (numBytes 2) ++ numBytes 42 0) := rfl
  have hlength : (Config.identityFields.flatMap (numBytes 2)).length = 22 := by simp [Config.identityFields]
  refine ⟨⟨?fields, fun a hlow hhigh => ?rest⟩, ?written⟩
  case fields =>
    have hfield : ∀ (front rest : List Nat), Config.identityFields = front ++ rest → ∀ v rest', rest = v :: rest' →
        v < 256 ^ 2 → readNum (writeArea .identity s).mem (2 * front.length) 2 = v := by
      rintro front rest h v rest' rfl hv
      rw [hmem, h]
      refine readNum_written _ _ 2 _ _ _ (front.flatMap (numBytes 2)) (rest'.flatMap (numBytes 2) ++ numBytes 42 0)
        (by simp) ?_ hv
      rw [length_flatMap_const _ _ 2 fun x => length_numBytes 2 x]
      omega
    have hat : ∀ k, k < 11 → readNum (writeArea .identity s).mem (2 * k) 2 = Config.identityFields.getD k 0 := by
      intro k hk
      have hk' : k < Config.identityFields.length := hk
      have h := hfield (Config.identityFields.take k) (Config.identityFields.drop k) (by simp) Config.identityFields[k]
        (Config.identityFields.drop (k + 1)) (List.drop_eq_getElem_cons hk') (by
          have hall : ∀ v ∈ Config.identityFields, v < 256 ^ 2 := by decide
          exact hall _ (List.getElem_mem hk'))
      rw [List.length_take, Nat.min_eq_left (Nat.le_of_lt hk')] at h
      rw [h, List.getD_eq_getElem _ _ hk']
    exact (List.map_congr_left fun k hk => hat k (List.mem_range.mp hk)).trans (by decide)
  case rest =>
    rw [hmem, readByte_writeBytes, if_pos (by simp [hlength]; omega), numBytes_zero,
      List.getD_append_right _ _ _ _ (by omega), List.getD_eq_getElem?_getD]
    exact List.getElem?_getD_replicate_default_eq _ _ _
  case written =>
    refine (write_memoryBut s 0 (Config.identityFields.flatMap (numBytes 2) ++ numBytes 42 0)).mono fun a h => ?_
    simp only [List.length_append, hlength, length_numBytes] at h
    exact (by omega : a < 0x0040)

theorem writeArea_done (area : InitArea) (s : State) : AreaDone area s (writeArea area s) := by
  cases area with
  | slots => exact writeArea_slots s
  | release => exact writeArea_release s
  | journal => exact writeArea_journal s
  | confirmations => exact writeArea_confirmations s
  | captures => exact writeArea_captures s
  | identity => exact writeArea_identity s

end Sys2Proof.Machine


/-! Memory traffic (R150), the end of initialization (R161, R162), and the drafts that a load has read (R40). -/

namespace Sys2Proof.Machine

variable {s t u : State} {m : Memory} {area : InitArea} {l : Load}

/-! ## Areas while the card initializes -/

theorem initializeArea_of (hphase : s.phase = .initializing) (h : area ∉ s.initialized) :
    initializeArea area s = { writeArea area s with initialized := area :: s.initialized } := if_pos ⟨hphase, h⟩

theorem initializeArea_of_not (h : s.phase ≠ .initializing ∨ area ∈ s.initialized) : initializeArea area s = s :=
  if_neg fun k => h.elim (· k.1) k.2

theorem writeArea_frame (area : InitArea) (s : State) : writeArea area s = s.setMem (writeArea area s).mem := by
  have h : SameBut [.mem] s (writeArea area s) := by simp
  exact State.same (h .phase (by simp)) (h .now (by simp)) rfl (h .initialized (by simp)) (h .scanner (by simp))
    (h .monitors (by simp)) (writeArea_evaluator area s) (h .chans (by simp)) (h .strikes (by simp))
    (h.resolvers (by simp) (by simp)) (h .arbiter (by simp)) (h .positions (by simp)) (h .captures (by simp))
    (h .handler (by simp)) (h .journal (by simp)) (h .status (by simp)) (h .irqEnable (by simp)) (h .links (by simp))
    (h .trips (by simp)) (h .pending (by simp))

/-- R161: what initialization's last writes leave, for the areas not yet written. -/
structure AreasDone (areas : List InitArea) (s t : State) : Prop where
  frame : t = { s with mem := t.mem, initialized := t.initialized }
  holds : ∀ area ∈ areas, area ∉ s.initialized → AreaWritten area s t.mem
  written : MemoryBut (fun a => ∃ area, area ∉ s.initialized ∧ area ∈ areas ∧ areaBytes area a) s t

theorem forEach_initializeArea : ∀ (areas : List InitArea) (s : State), s.phase = .initializing → areas.Nodup →
    AreasDone areas s (forEach areas initializeArea s)
  | [], s, _, _ => ⟨rfl, by simp, fun _ _ => rfl⟩
  | x :: areas, s, hphase, hnodup => by
    obtain ⟨hx, hnodup⟩ := List.nodup_cons.mp hnodup
    rw [forEach_cons]
    by_cases hdone : x ∈ s.initialized
    · rw [initializeArea_of_not (.inr hdone)]
      have h := forEach_initializeArea areas s hphase hnodup
      refine ⟨h.frame, fun area harea hout => h.holds area ((List.mem_cons.mp harea).resolve_left ?_) hout,
        h.written.mono fun a ⟨area, hout, hin, ha⟩ => ⟨area, hout, by simp [hin], ha⟩⟩
      rintro rfl
      exact hout hdone
    · rw [initializeArea_of hphase hdone]
      have hwritten := writeArea_done x s
      generalize hu : ({ writeArea x s with initialized := x :: s.initialized } : State) = u
      have hmem : u.mem = (writeArea x s).mem := by rw [← hu]
      have hframe : u = { s with mem := u.mem, initialized := x :: s.initialized } := by
        rw [← hu]
        conv_lhs => rw [writeArea_frame]
        rfl
      have hinit : u.initialized = x :: s.initialized := by rw [hframe]
      have h := forEach_initializeArea areas u (by rw [hframe]; exact hphase) hnodup
      have hout : ∀ {area}, area ∈ areas → area ∉ s.initialized → area ∉ u.initialized := fun {area} harea ha => by
        rw [hinit]
        refine fun hmem => (List.mem_cons.mp hmem).elim (fun heq => hx (heq ▸ harea)) ha
      refine ⟨h.frame.trans ?frame, fun area harea ha => ?holds, fun a ha => ?written⟩
      case frame => rw [hframe]
      case holds =>
        rcases List.mem_cons.mp harea with rfl | harea
        · refine hwritten.holds.congr fun a hbytes => ?_
          rw [h.written a ?_, hmem]
          rintro ⟨other, -, hin, hother⟩
          exact hx (eq_of_areaBytes hbytes hother ▸ hin)
        · refine (h.holds area harea (hout harea ha)).of_owner ?_ ?_ ?_ <;> rw [hframe]
      case written =>
        rw [h.written a ?_, hmem, hwritten.written a fun hbytes => ha ⟨x, hdone, by simp, hbytes⟩]
        rintro ⟨other, hother, hin, hbytes⟩
        rw [hinit] at hother
        exact ha ⟨other, fun hmem => hother (by simp [hmem]), by simp [hin], hbytes⟩

theorem finishAreas_eq (s : State) : finishAreas s = writeArea .release (writeArea .slots
    (forEach [.journal, .confirmations, .captures, .identity] initializeArea s)) := rfl

/-- R161, R162: common memory as the card becomes READY. -/
structure ReadyMemory (s t : State) : Prop where
  frame : t = { s with phase := .ready, mem := t.mem, initialized := t.initialized, status := { s.status with due := s.now } }
  holds : ∀ area, area ∉ s.initialized → AreaWritten area s t.mem
  slots : ∀ k, slotWord t.mem k 0 = 0
  release : releaseWord t.mem = 0
  written : MemoryBut (fun a => ∃ area, (area ∉ s.initialized ∨ area = .slots ∨ area = .release) ∧ areaBytes area a) s t

theorem becomeReady_memory (hphase : s.phase = .initializing) : ReadyMemory s (becomeReady s) := by
  have hareas := forEach_initializeArea [.journal, .confirmations, .captures, .identity] s hphase (by decide)
  rw [becomeReady, finishAreas_eq]
  generalize forEach [.journal, .confirmations, .captures, .identity] initializeArea s = v at hareas
  have hslots := writeArea_done .slots v
  have hslotsFrame := writeArea_frame .slots v
  generalize writeArea .slots v = x at hslots hslotsFrame
  have hrelease := writeArea_done .release x
  have hframe := (writeArea_frame .release x).trans (congrArg (fun y => y.setMem (writeArea .release x).mem) hslotsFrame)
  generalize writeArea .release x = w at hrelease hframe
  have hbyte : ∀ a, ¬ areaBytes .slots a → ¬ areaBytes .release a → readByte w.mem a = readByte v.mem a :=
    fun a hs hr => (hrelease.written a hr).trans (hslots.written a hs)
  have hkept : ∀ {area}, area ≠ .slots → area ≠ .release → ∀ a, areaBytes area a → readByte w.mem a = readByte v.mem a :=
    fun {area} hs hr a ha => hbyte a (fun h => hs (eq_of_areaBytes ha h)) fun h => hr (eq_of_areaBytes ha h)
  have hslotWords : ∀ k, slotWord w.mem k 0 = 0 := (hslots.holds.congr (area := .slots) (s := v) fun a ha =>
    hrelease.written a fun h => by cases eq_of_areaBytes ha h)
  refine ⟨?frame, fun area harea => ?holds, hslotWords, hrelease.holds, fun a ha => ?written⟩
  case frame =>
    show ({ w with phase := .ready, status := { w.status with due := w.now } } : State)
      = { s with phase := .ready, mem := w.mem, initialized := w.initialized, status := { s.status with due := s.now } }
    rw [hframe, hareas.frame]
    rfl
  case holds =>
    cases area with
    | slots => exact hslotWords
    | release => exact hrelease.holds
    | journal | confirmations | captures | identity =>
      exact (hareas.holds _ (by simp) harea).congr (hkept (by simp) (by simp))
  case written =>
    refine (hbyte a (fun h => ha ⟨_, .inr (.inl rfl), h⟩) fun h => ha ⟨_, .inr (.inr rfl), h⟩).trans ?_
    exact hareas.written a fun ⟨area, hout, _, hbytes⟩ => ha ⟨area, .inl hout, hbytes⟩

/-! ## Memory traffic (R150) -/

theorem exec_slotStateWrite_of (hphase : s.phase ≠ .unpowered) (before : List Traffic) (k : SlotIx) (v : Word) :
    exec (.slotStateWrite before k v) s
      = .next ((forEach before takeTraffic s).write (slotAddress k) (numBytes 2 v.toNat)) := if_neg hphase

/-- The traffic ahead of a slot state write goes before it, item by item. -/
theorem exec_slotStateWrite_cons (hphase : s.phase ≠ .unpowered) (item : Traffic) (before : List Traffic) (k : SlotIx)
    (v : Word) : exec (.slotStateWrite (item :: before) k v) s
      = exec (.slotStateWrite before k v) (takeTraffic item s) := by
  rw [exec_slotStateWrite_of hphase, exec_slotStateWrite_of (by rwa [takeTraffic_phase])]
  rfl

/-! ## Drafts (R40) -/

/-- R40: the drafts that a load has, once it has read them all. -/
theorem Load.map_draftAt (h : l.drafts.length ≤ 96) (m : Memory) : (List.finRange 96).map (l.draftAt m)
    = l.drafts ++ ((List.finRange 96).drop l.drafts.length).map (readCondition m) := by
  refine List.ext_getElem (by simp; omega) fun i h1 h2 => ?_
  rw [List.getElem_map, List.getElem_append, List.getElem_finRange]
  split
  · exact Load.draftAt_read l m _ ‹_›
  · rename_i hi
    rw [Load.draftAt_unread l m _ (Nat.not_lt.mp hi)]
    simp only [List.getElem_map, List.getElem_drop, List.getElem_finRange]
    exact congrArg (readCondition m) (Fin.ext (by simp only [Fin.val_cast]; omega))

/-- R40: a load that reads on. -/
theorem Load.readTo_eq (h : l.drafts.length ≤ 96) (m : Memory) (upTo : Nat) : l.readTo m upTo
    = ⟨l.slot, ((List.finRange 96).map (l.draftAt m)).take (max l.drafts.length upTo),
        if 97 ≤ upTo then some (l.settingsAt m) else l.settings⟩ := by
  have hdrafts : (l.readTo m upTo).drafts
      = ((List.finRange 96).map (l.draftAt m)).take (max l.drafts.length upTo) := by
    rw [Load.readTo_drafts, Load.map_draftAt h, List.take_append, List.take_of_length_le (Nat.le_max_left _ _),
      List.map_take, show max l.drafts.length upTo - l.drafts.length = upTo - l.drafts.length by omega]
  rw [← hdrafts]
  rfl

/-- Settles O11: item by item of the traffic before the write. -/
theorem slotStateIsWritten : Obligations.SlotStateIsWritten := by
  intro s k v hphase
  refine ⟨⟨_, exec_slotStateWrite_of hphase [] k v, rfl, ?word, ?written, ?done⟩,
    fun a b before => ⟨_, exec_slotStateWrite_cons hphase _ before k v, rfl, ?byte, ?byteWritten⟩,
    fun area before hinit hout => ⟨_, exec_slotStateWrite_cons hphase _ before k v, ?area⟩,
    fun area before hnot => ?noArea,
    fun upTo before l hload hlength => ⟨_, exec_slotStateWrite_cons hphase _ before k v, ?drafts⟩,
    fun upTo before hload => ?noLoad⟩
  case word => exact (readNum_writeBytes_same _ _ _ _).trans (word_toNat_mod v)
  case written => exact writeSlotState_memoryBut k v.toNat s
  case done =>
    have hsame : slotWord (writeBytes s.mem (slotAddress k) (numBytes 2 v.toNat)) k 0 = v.toNat :=
      (readNum_writeBytes_same _ _ _ _).trans (word_toNat_mod v)
    have hother : ∀ j, j ≠ k → slotWord (writeBytes s.mem (slotAddress k) (numBytes 2 v.toNat)) j 0 = slotWord s.mem j 0 :=
      fun j hj => readNum_writeBytes_disjoint _ _ _ _ _ (by
        have := slotAddress_apart hj
        simp only [length_numBytes]
        omega)
    have hthree : v.toNat = 3 ↔ v = 3 := ⟨fun h => BitVec.eq_of_toNat_eq h, fun h => by rw [h]; rfl⟩
    rw [reqDonePending_iff]
    constructor
    · rintro ⟨j, hj⟩
      by_cases hjk : j = k
      · subst hjk
        exact .inl (hthree.mp (hsame.symm.trans hj))
      · exact .inr ⟨j, hjk, (hother j hjk).symm.trans hj⟩
    · rintro (hv | ⟨j, hjk, hj⟩)
      · exact ⟨k, hsame.trans (hthree.mpr hv)⟩
      · exact ⟨j, (hother j hjk).trans hj⟩
  case byte =>
    refine (readByte_writeBytes _ _ _ _).trans ((if_pos ⟨Nat.le_refl _, by simp⟩).trans ?_)
    simp
  case byteWritten => exact (write_memoryBut s a.toNat [b]).mono fun x hx => by simp at hx; omega
  case area =>
    have hdone := writeArea_done area s
    rw [show takeTraffic (.initArea area) s = _ from initializeArea_of hinit hout]
    exact ⟨by conv_lhs => rw [writeArea_frame]
              rfl, hdone.holds, hdone.written⟩
  case noArea =>
    rw [exec_slotStateWrite_cons hphase, show takeTraffic (.initArea area) s = s from initializeArea_of_not hnot]
  case drafts =>
    show readDrafts upTo s = _
    rw [← Load.readTo_eq hlength]
    simp only [readDrafts, hload]
    rfl
  case noLoad =>
    have hnone : takeTraffic (.readDrafts upTo) s = s := by simp [takeTraffic, readDrafts, hload]
    rw [exec_slotStateWrite_cons hphase, hnone]

end Sys2Proof.Machine


/-! INITIALIZATION_END (R161, R162): the areas, READY, and the records that waited for it. -/

namespace Sys2Proof.Machine

variable {s t u : State} {m : Memory} {area : InitArea}

/-! ## What numbering can write lies in the journal's and the captures' areas -/

theorem areaBytes_of_journalHeaderBytes {a : Nat} (h : journalHeaderBytes a) : areaBytes .journal a := .inl h

theorem areaBytes_of_journalSlotBytes {n : Fin 64} {a : Nat} (h : journalSlotBytes n a) : areaBytes .journal a := by
  have hn := n.isLt
  simp only [journalSlotBytes, Config.journalBase] at h
  exact .inr (by omega)

theorem areaBytes_of_headerBytes {b : BufferIx} {a : Nat} (h : headerBytes b a) : areaBytes .captures a := by
  have hb := b.isLt
  simp only [headerBytes, Config.captureHeaderBase] at h
  exact .inl (by omega)

theorem journalSlotBytes_inj {n k : Fin 64} {a : Nat} (hn : journalSlotBytes n a) (hk : journalSlotBytes k a) : n = k := by
  simp only [journalSlotBytes] at hn hk
  exact Fin.ext (by omega)

/-- R164: records that start no capture leave the Capture Unit alone. -/
theorem numberRecords_captures {l : List WaitingRecord} (h : ∀ w, w ∈ l → ¬ StartsCapture w.record) (s : State) :
    (forEach l (fun w t => numberRecord w.record t) s).captures = s.captures :=
  forEach_same (·.captures) _ l s fun w hw t => by rw [numberRecord_of_none ((not_startsCapture_iff _).mp (h w hw))]; rfl

/-! ## The end of initialization -/

/-- The card as it is READY, with the records that still wait for a capture. -/
def awaitCaptures (s : State) : State :=
  (becomeReady s).setJournal { s.journal with waiting := s.journal.waiting.filter (fun w => w.awaitsCapture) }

theorem numberHeldRecords_becomeReady (hphase : s.phase = .initializing) : numberHeldRecords (becomeReady s)
    = forEach (heldRecords s) (fun w t => numberRecord w.record t) (awaitCaptures s) := by
  have hjournal : (becomeReady s).journal = s.journal := by rw [(becomeReady_memory hphase).frame]
  unfold numberHeldRecords heldRecords awaitCaptures
  simp only [hjournal]

theorem awaitCaptures_eq (hphase : s.phase = .initializing) : awaitCaptures s = { s with
    phase := .ready, mem := (becomeReady s).mem, initialized := (becomeReady s).initialized
    status := { s.status with due := s.now }
    journal := { s.journal with waiting := s.journal.waiting.filter (fun w => w.awaitsCapture) } } := by
  have h := (becomeReady_memory hphase).frame
  unfold awaitCaptures
  generalize becomeReady s = r at h ⊢
  rw [h]
  rfl

/-- R161, R162: what INITIALIZATION_END leaves. -/
structure InitializationDone (s t : State) : Prop where
  frame : t = { s with phase := .ready, mem := t.mem, initialized := t.initialized, captures := t.captures
                       journal := t.journal, status := { s.status with due := s.now } }
  slots : ∀ k, slotWord t.mem k 0 = 0
  release : releaseWord t.mem = 0
  journal : t.journal = { s.journal with
    newest := numberAfterRecords s.journal.newest (heldRecords s).length
    next := slotsOn s.journal.next (heldRecords s).length
    waiting := s.journal.waiting.filter (fun w => w.awaitsCapture) }
  records : ∀ k w, (heldRecords s)[k]? = some w → (heldRecords s).length ≤ k + 64 →
    RecordAt t.mem (slotsOn s.journal.next k) (numberAfterRecords s.journal.newest (k + 1)) w.record
  header : heldRecords s ≠ [] ∨ .journal ∉ s.initialized →
    readNum t.mem 0x0080 4 = t.journal.newest.toNat ∧ readNum t.mem 0x0084 2 = t.journal.next.val
  empty : .journal ∉ s.initialized → ∀ n, (∀ k, k < (heldRecords s).length → slotsOn s.journal.next k ≠ n) →
    ∀ a, journalSlotBytes n a → readByte t.mem a = 0
  areas : ∀ area, area = .identity ∨ area = .confirmations → area ∉ s.initialized → AreaWritten area s t.mem
  captures : (∀ w, w ∈ heldRecords s → ¬ StartsCapture w.record) → t.captures = s.captures
    ∧ (.captures ∉ s.initialized → AreaWritten .captures s t.mem)
  written : MemoryBut (fun a =>
    (∃ area, (area ∉ s.initialized ∨ area = .slots ∨ area = .release) ∧ areaBytes area a)
    ∨ (∃ k, k < (heldRecords s).length ∧ (journalHeaderBytes a ∨ journalSlotBytes (slotsOn s.journal.next k) a))
    ∨ ((∃ w, w ∈ heldRecords s ∧ StartsCapture w.record) ∧ ∃ b, headerBytes b a)) s t

theorem numberHeldRecords_done (hphase : s.phase = .initializing) :
    InitializationDone s (numberHeldRecords (becomeReady s)) := by
  rw [numberHeldRecords_becomeReady hphase]
  have hready := becomeReady_memory hphase
  obtain ⟨hframe, hrecords, hheader, hwritten⟩ := numberRecords_spec (heldRecords s) (awaitCaptures s)
  have hcaptures := fun h => numberRecords_captures (l := heldRecords s) h (awaitCaptures s)
  have hnone : heldRecords s = [] →
      forEach (heldRecords s) (fun w t => numberRecord w.record t) (awaitCaptures s) = awaitCaptures s := fun h => by
    rw [h]; rfl
  generalize forEach (heldRecords s) (fun w t => numberRecord w.record t) (awaitCaptures s) = t at *
  have hawait := awaitCaptures_eq hphase
  have hmem : (awaitCaptures s).mem = (becomeReady s).mem := rfl
  have hbyte : ∀ a, ¬ areaBytes .journal a → ¬ areaBytes .captures a →
      readByte t.mem a = readByte (becomeReady s).mem a := fun a hj hc => by
    refine hwritten a ?_
    rintro (⟨k, -, h | h⟩ | ⟨-, b, h⟩)
    · exact hj (areaBytes_of_journalHeaderBytes h)
    · exact hj (areaBytes_of_journalSlotBytes h)
    · exact hc (areaBytes_of_headerBytes h)
  have hkept : ∀ {area}, area ≠ .journal → area ≠ .captures → ∀ a, areaBytes area a →
      readByte t.mem a = readByte (becomeReady s).mem a := fun {area} hj hc a ha =>
    hbyte a (fun h => hj (eq_of_areaBytes ha h)) fun h => hc (eq_of_areaBytes ha h)
  have hjournal : t.journal = { s.journal with
      newest := numberAfterRecords s.journal.newest (heldRecords s).length
      next := slotsOn s.journal.next (heldRecords s).length
      waiting := s.journal.waiting.filter (fun w => w.awaitsCapture) } := by
    rw [hframe]; rfl
  refine ⟨?frame, ?slots, ?release, hjournal, hrecords, fun h => ?header, fun hout n hn a ha => ?empty,
    fun area harea hout => ?areas, fun hplain => ⟨?captures, fun hout => ?headers⟩, fun a ha => ?written⟩
  case frame =>
    rw [hjournal, hframe, hawait]
  case slots => exact AreaWritten.congr (area := .slots) (s := s) hready.slots (hkept (by simp) (by simp))
  case release => exact AreaWritten.congr (area := .release) (s := s) hready.release (hkept (by simp) (by simp))
  case header =>
    rw [hjournal]
    by_cases hheld : heldRecords s = []
    · obtain ⟨hnewest, hnext, -⟩ := hready.holds .journal (h.resolve_left (not_not_intro hheld))
      rw [hnone hheld, hmem, hheld, List.length_nil, slotsOn_zero]
      exact ⟨hnewest, hnext⟩
    · exact hheader hheld
  case empty =>
    obtain ⟨-, -, hzero⟩ := hready.holds .journal hout
    rw [hwritten a ?_]
    · exact hzero a (by simp only [journalSlotBytes, Config.journalBase] at ha; omega)
    · rintro (⟨k, hk, h | h⟩ | ⟨-, b, h⟩)
      · simp only [journalSlotBytes, journalHeaderBytes, Config.journalBase, Config.journalHeaderBase] at ha h
        omega
      · exact hn k hk (journalSlotBytes_inj h ha)
      · cases eq_of_areaBytes (areaBytes_of_journalSlotBytes ha) (areaBytes_of_headerBytes h)
  case areas =>
    refine (hready.holds area hout).congr (hkept ?_ ?_) <;> rcases harea with rfl | rfl <;> simp
  case captures => rw [hcaptures hplain, hawait]
  case headers =>
    refine (hready.holds .captures hout).congr fun a ha => hwritten a ?_
    rintro (⟨k, -, h | h⟩ | ⟨⟨w, hw, hstarts⟩, -⟩)
    · cases eq_of_areaBytes ha (areaBytes_of_journalHeaderBytes h)
    · cases eq_of_areaBytes ha (areaBytes_of_journalSlotBytes h)
    · exact hplain w hw hstarts
  case written =>
    rw [hwritten a fun h => ha (.inr h), hmem]
    exact hready.written a fun h => ha (.inl h)

theorem exec_initializationEnd_of (hphase : s.phase = .initializing) :
    exec .initializationEnd s = .next (numberHeldRecords (becomeReady s)) := by
  rw [exec_initializationEnd_eq, if_pos hphase]

theorem readByte_of_readNum_eq_zero (m : Memory) : ∀ (n a : Nat), readNum m a n = 0 → ∀ x, a ≤ x → x < a + n →
    readByte m x = 0
  | 0, a, _, x, hlow, hhigh => by omega
  | n + 1, a, h, x, hlow, hhigh => by
    simp only [readNum] at h
    by_cases hx : x = a
    · subst hx
      exact BitVec.eq_of_toNat_eq (by simp; omega)
    · exact readByte_of_readNum_eq_zero m n (a + 1) (by omega) x (by omega) (by omega)

/-- Section 9.1: the bytes that lie in no area which initialization writes. -/
theorem not_areaBytes {a : Nat} (h : (0x0040 ≤ a ∧ a < 0x0080) ∨ (0x00A4 ≤ a ∧ a < 0x00C0) ∨ (0x0500 ≤ a ∧ a < 0x0600)
    ∨ (0x0E80 ≤ a ∧ a < 0x3000) ∨ 0x4800 ≤ a) (area : InitArea) : ¬ areaBytes area a := by
  intro ha
  cases area with
  | slots =>
    obtain ⟨k, hlow, hhigh⟩ := ha
    have hk := k.isLt
    simp only [slotAddress, Config.slotBase] at hlow hhigh
    omega
  | release | journal | confirmations | captures | identity => simp only [areaBytes] at ha; omega

/-- Settles O7: what `becomeReady` and the numbering of the held records leave; for a card just reset no record is
held, and every block has its reset values. -/
theorem initializationEnds : Obligations.InitializationEnds := by
  intro s
  refine ⟨fun hphase => by rw [exec_initializationEnd_eq, if_neg hphase], fun hphase => ?ends,
    fun hphase hinit hjournal hstrike hbuffer => ?fresh⟩
  case ends =>
    have h := numberHeldRecords_done hphase
    refine ⟨_, exec_initializationEnd_of hphase, ?_, h.frame, h.slots, h.release, ?_, h.journal, h.records, h.header,
      h.empty, h.areas, h.captures, h.written, fun hwaiting => ?_⟩
    · rw [h.frame]
    · rw [← Bool.not_eq_true, reqDonePending_iff]
      rintro ⟨k, hk⟩
      rw [h.slots k] at hk
      cases hk
    · have hheld : heldRecords s = [] := by simp [heldRecords, hwaiting]
      refine ⟨?_, (h.captures (by simp [hheld])).1⟩
      have hfilter : s.journal.waiting.filter (fun w => w.awaitsCapture) = s.journal.waiting := by rw [hwaiting]; rfl
      rw [h.journal, hheld, hfilter, List.length_nil, slotsOn_zero]
      rfl
  case fresh =>
    have h := numberHeldRecords_done hphase
    have hheld : heldRecords s = [] := by rw [heldRecords, hjournal]; rfl
    have hout : ∀ area, area ∉ s.initialized := by simp [hinit]
    have hnewest := h.header (.inr (hout _))
    rw [h.journal, hheld, hjournal, List.length_nil, slotsOn_zero] at hnewest
    have hconfirmations := h.areas .confirmations (.inr rfl) (hout _)
    obtain ⟨hheaders, hdata⟩ := (h.captures (by simp [hheld])).2 (hout _)
    refine ⟨_, exec_initializationEnd_of hphase, (h.areas .identity (.inl rfl) (hout _)).1, hnewest.1, hnewest.2,
      fun a hlow hhigh => ?slots, fun c => ?confirmation, fun a hlow hhigh => ?header, hdata, fun a ha => ?rest⟩
    case slots =>
      exact h.empty (hout _) ⟨(a - 0x0600) / 32, by omega⟩ (by simp [hheld]) a
        (by simp only [journalSlotBytes, Config.journalBase]; omega)
    case confirmation =>
      obtain ⟨hpending, hchannel, hnumber, hcount, hposted, hdeadline⟩ := hconfirmations c
      rw [hstrike] at hpending hnumber hcount hposted hdeadline
      refine ⟨hpending, hchannel, fun a hlow hhigh => ?_⟩
      by_cases h1 : a < 0x00C0 + 16 * c.val + 6
      · exact readByte_of_readNum_eq_zero _ 2 _ hnumber a (by omega) (by omega)
      · by_cases h2 : a < 0x00C0 + 16 * c.val + 8
        · exact readByte_of_readNum_eq_zero _ 2 _ hcount a (by omega) (by omega)
        · by_cases h3 : a < 0x00C0 + 16 * c.val + 12
          · exact readByte_of_readNum_eq_zero _ 4 _ hposted a (by omega) (by omega)
          · exact readByte_of_readNum_eq_zero _ 4 _ hdeadline a (by omega) (by omega)
    case header =>
      obtain ⟨hstate, hmask, hsequence, htime, hzero⟩ := hheaders ⟨(a - 0x0E00) / 32, by omega⟩
      rw [hbuffer] at hstate hmask hsequence htime
      simp only [] at hstate hmask hsequence htime hzero
      by_cases h0 : a < 0x0E00 + 32 * ((a - 0x0E00) / 32) + 2
      · exact readByte_of_readNum_eq_zero _ 2 _ hstate a (by omega) (by omega)
      · by_cases h1 : a < 0x0E00 + 32 * ((a - 0x0E00) / 32) + 4
        · exact readByte_of_readNum_eq_zero _ 2 _ hmask a (by omega) (by omega)
        · by_cases h2 : a < 0x0E00 + 32 * ((a - 0x0E00) / 32) + 8
          · exact readByte_of_readNum_eq_zero _ 4 _ hsequence a (by omega) (by omega)
          · by_cases h3 : a < 0x0E00 + 32 * ((a - 0x0E00) / 32) + 12
            · exact readByte_of_readNum_eq_zero _ 4 _ htime a (by omega) (by omega)
            · exact hzero a (by omega) (by omega)
    case rest =>
      refine h.written a ?_
      rintro (⟨area, -, hbytes⟩ | ⟨k, hk, -⟩ | ⟨⟨w, hw, -⟩, -⟩)
      · exact not_areaBytes ha area hbytes
      · simp [hheld] at hk
      · simp [hheld] at hw

end Sys2Proof.Machine


/-! What the Condition Evaluator sends (R30 to R35): one claim, and a run of claims. -/

namespace Sys2Proof.Machine

variable {s t u : State} {c : Channel} {i : EntryIx} {f : ConditionFields} {claim : Claim} {after : Option Stamp}

/-! ## Deliveries of one claim -/

theorem mem_channelsOf (mask : Nat) (c : Channel) : c ∈ channelsOf mask ↔ mask.testBit c.val = true := by
  simp [channelsOf, mem_allChannels]

theorem channelsOf_nodup (mask : Nat) : (channelsOf mask).Nodup := allChannels_nodup.filter _

theorem forEach_deliverFoldback (d : FoldbackDelivery) (mask : Nat) (s : State) :
    forEach (channelsOf mask) (fun c => deliverFoldback c d) s
      = { s with links := (forEach (channelsOf mask) (fun c => deliverFoldback c d) s).links }
    ∧ ∀ c, (forEach (channelsOf mask) (fun c => deliverFoldback c d) s).link c = if c ∈ channelsOf mask then
        { s.link c with foldback := (s.link c).foldback ++ [d] } else s.link c :=
  forEach_setLink (fun _ x => { x with foldback := x.foldback ++ [d] }) (J := s.journal) (fun _ _ _ => rfl) _ s
    (channelsOf_nodup mask) rfl

theorem forEach_deliverEvaluator (e : EvaluatorEvent) (mask : Nat) (s : State) :
    forEach (channelsOf mask) (fun c => deliverEvaluator c e) s
      = { s with links := (forEach (channelsOf mask) (fun c => deliverEvaluator c e) s).links }
    ∧ ∀ c, (forEach (channelsOf mask) (fun c => deliverEvaluator c e) s).link c = if c ∈ channelsOf mask then
        { s.link c with fromEvaluator := (s.link c).fromEvaluator ++ [⟨e, s.journal.sent⟩] } else s.link c :=
  forEach_setLink (fun _ x => { x with fromEvaluator := x.fromEvaluator ++ [⟨e, s.journal.sent⟩] }) (J := s.journal)
    (fun c t ht => by rw [deliverEvaluator, ht]) _ s (channelsOf_nodup mask) rfl

/-- R32 to R35: what the deliveries of a claim leave, the records sent before it being counted. -/
structure Delivered (claim : Claim) (i : EntryIx) (f : ConditionFields) (s t : State) : Prop where
  frame : t = { s with links := t.links, trips := t.trips }
  trips : t.trips = s.trips ++ (claimTrip claim i f s.journal.sent).toList
  link : ∀ c, t.link c = { s.link c with
    foldback := (s.link c).foldback ++ (claimFoldback claim i f c).toList
    fromEvaluator := (s.link c).fromEvaluator
      ++ ((claimEvent claim i f c).map (fun e => ⟨e, s.journal.sent⟩)).toList }

/-- A claim that delivers nothing. -/
theorem delivered_nothing (htrip : claimTrip claim i f s.journal.sent = none)
    (hfoldback : ∀ c, claimFoldback claim i f c = none) (hevent : ∀ c, claimEvent claim i f c = none) :
    Delivered claim i f s s :=
  ⟨rfl, by simp [htrip], fun c => by simp [hfoldback, hevent]⟩

theorem delivered_foldback (d : FoldbackDelivery) (htrip : claimTrip claim i f s.journal.sent = none)
    (hfoldback : ∀ c, claimFoldback claim i f c = if f.scope.testBit c.val = true then some d else none)
    (hevent : ∀ c, claimEvent claim i f c = none) :
    Delivered claim i f s (forEach (channelsOf f.scope) (fun c => deliverFoldback c d) s) := by
  obtain ⟨hframe, hlink⟩ := forEach_deliverFoldback d f.scope s
  refine ⟨by rw [hframe], by rw [hframe, htrip]; simp, fun c => ?_⟩
  rw [hlink c, hfoldback, hevent]
  by_cases h : f.scope.testBit c.val = true
  · rw [if_pos ((mem_channelsOf _ _).mpr h), if_pos h]; simp
  · rw [if_neg fun k => h ((mem_channelsOf _ _).mp k), if_neg h]; simp

theorem delivered_event (e : EvaluatorEvent) (htrip : claimTrip claim i f s.journal.sent = none)
    (hfoldback : ∀ c, claimFoldback claim i f c = none)
    (hevent : ∀ c, claimEvent claim i f c = if f.scope.testBit c.val = true then some e else none) :
    Delivered claim i f s (forEach (channelsOf f.scope) (fun c => deliverEvaluator c e) s) := by
  obtain ⟨hframe, hlink⟩ := forEach_deliverEvaluator e f.scope s
  refine ⟨by rw [hframe], by rw [hframe, htrip]; simp, fun c => ?_⟩
  rw [hlink c, hfoldback, hevent]
  by_cases h : f.scope.testBit c.val = true
  · rw [if_pos ((mem_channelsOf _ _).mpr h), if_pos h]; simp
  · rw [if_neg fun k => h ((mem_channelsOf _ _).mp k), if_neg h]; simp

theorem assertedDeliveries_delivered (i : EntryIx) (f : ConditionFields) (s : State) :
    Delivered .asserted i f s (assertedDeliveries i f s) := by
  unfold assertedDeliveries
  cases h : actionOf f.action with
  | none => exact delivered_nothing (by simp [claimTrip, h]) (by simp [claimFoldback, h]) (by simp [claimEvent, h])
  | some a =>
    cases a with
    | note => exact delivered_nothing (by simp [claimTrip, h]) (by simp [claimFoldback, h]) (by simp [claimEvent, h])
    | foldback =>
      exact delivered_foldback _ (by simp [claimTrip, h]) (by simp [claimFoldback, h]) (by simp [claimEvent, h])
    | strike => exact delivered_event _ (by simp [claimTrip, h]) (by simp [claimFoldback, h]) (by simp [claimEvent, h])
    | lockout => exact delivered_event _ (by simp [claimTrip, h]) (by simp [claimFoldback, h]) (by simp [claimEvent, h])
    | positionTrip =>
      by_cases hp : f.scope < 24
      · simp only [index, hp, dite_true]
        exact ⟨rfl, by simp [claimTrip, h, hp, deliverTrip],
          fun c => by simp [claimFoldback, claimEvent, h, deliverTrip]⟩
      · simp only [index, hp, dite_false]
        exact delivered_nothing (by simp [claimTrip, hp]) (by simp [claimFoldback, h]) (by simp [claimEvent, h])

theorem withdrawnDeliveries_delivered (i : EntryIx) (f : ConditionFields) (s : State) :
    Delivered .withdrawn i f s (withdrawnDeliveries i f s) := by
  unfold withdrawnDeliveries
  cases h : actionOf f.action with
  | none => exact delivered_nothing (by simp [claimTrip]) (by simp [claimFoldback, h]) (by simp [claimEvent, h])
  | some a =>
    cases a with
    | foldback => exact delivered_foldback _ (by simp [claimTrip]) (by simp [claimFoldback, h]) (by simp [claimEvent, h])
    | strike => exact delivered_event _ (by simp [claimTrip]) (by simp [claimFoldback, h]) (by simp [claimEvent, h])
    | note | lockout | positionTrip =>
      exact delivered_nothing (by simp [claimTrip]) (by simp [claimFoldback, h]) (by simp [claimEvent, h])

/-! ## One claim: its record, and then its deliveries (R30, R31) -/

/-- What a claim leaves: its record sent, and its deliveries stamped after that record. -/
structure ClaimSent (after : Option Stamp) (claim : Claim) (i : EntryIx) (f : ConditionFields) (r : Record)
    (s t : State) : Prop where
  frame : t = { s with journal := t.journal, links := t.links, trips := t.trips }
  journal : Sent s t .evaluator after false r
  trips : t.trips = s.trips ++ (claimTrip claim i f (s.journal.sent + 1)).toList
  link : ∀ c, t.link c = { s.link c with
    foldback := (s.link c).foldback ++ (claimFoldback claim i f c).toList
    fromEvaluator := (s.link c).fromEvaluator
      ++ ((claimEvent claim i f c).map (fun e => ⟨e, s.journal.sent + 1⟩)).toList }

theorem Delivered.claimSent {r : Record} (h : Delivered claim i f (sendRecord .evaluator after false r s) t) :
    ClaimSent after claim i f r s t := by
  have hjournal : t.journal = (sendRecord .evaluator after false r s).journal := by
    have hframe := congrArg State.journal h.frame
    exact hframe
  exact ⟨h.frame.trans (by rw [hjournal]; rfl), hjournal, h.trips, h.link⟩

theorem assertAction_sent (after : Option Stamp) (i : EntryIx) (f : ConditionFields) (value : Nat) (s : State) :
    ClaimSent after .asserted i f (conditionRecord .conditionSet i f (some value) false s) s
      (assertAction after i f value s) := (assertedDeliveries_delivered i f _).claimSent

theorem withdrawAction_sent (after : Option Stamp) (i : EntryIx) (f : ConditionFields) (value : Option Nat)
    (replaced : Bool) (s : State) :
    ClaimSent after .withdrawn i f (conditionRecord .conditionCleared i f value replaced s) s
      (withdrawAction after i f value replaced s) := (withdrawnDeliveries_delivered i f _).claimSent

/-! ## What a withdrawal delivers (R32, R33) -/

theorem claimFoldback_withdrawn (i : EntryIx) (f : ConditionFields) (c : Channel) : claimFoldback .withdrawn i f c
    = if actionOf f.action = some .foldback ∧ f.scope.testBit c.val = true then some (.leave i) else none := rfl

theorem claimEvent_withdrawn (i : EntryIx) (f : ConditionFields) (c : Channel) : claimEvent .withdrawn i f c
    = if actionOf f.action = some .strike ∧ f.scope.testBit c.val = true then some (.conditionCleared i) else none := by
  unfold claimEvent
  by_cases hbit : f.scope.testBit c.val = true
  · cases h : actionOf f.action with
    | none => simp
    | some a => cases a <;> simp [hbit]
  · simp [hbit]

theorem claimTrip_withdrawn (i : EntryIx) (f : ConditionFields) (sent : Nat) :
    claimTrip .withdrawn i f sent = none := by simp [claimTrip]

/-! ## A run of claims -/

/-- What a run of claims leaves at the Journal Writer and on the links, each claim with its entry's fields and its
record. -/
structure ClaimsSent (after : Option Stamp) (claim : EntryIx → Claim) (fields : EntryIx → ConditionFields)
    (record : EntryIx → Record) (l : List EntryIx) (s t : State) : Prop where
  journal : SentAll s t .evaluator after (l.map record)
  trips : t.trips = s.trips ++ (l.zipIdx s.journal.sent).filterMap (fun x =>
    claimTrip (claim x.1) x.1 (fields x.1) (x.2 + 1))
  link : ∀ c, t.link c = { s.link c with
    foldback := (s.link c).foldback ++ l.filterMap (fun i => claimFoldback (claim i) i (fields i) c)
    fromEvaluator := (s.link c).fromEvaluator ++ (l.zipIdx s.journal.sent).filterMap (fun x =>
      (claimEvent (claim x.1) x.1 (fields x.1) c).map (fun e => ⟨e, x.2 + 1⟩)) }

section
variable {claims : EntryIx → Claim} {fields : EntryIx → ConditionFields} {record : EntryIx → Record}
  {l : List EntryIx}

theorem claimsSent_nil (hjournal : t.journal = s.journal) (htrips : t.trips = s.trips) (hlinks : t.links = s.links) :
    ClaimsSent after claims fields record [] s t :=
  ⟨(sentAll_nil s t .evaluator after).mpr hjournal, by simp [htrips], fun c => by simp [State.link, hlinks]⟩

theorem filterMap_cons_toList {α β : Type} (g : α → Option β) (x : α) (l : List α) :
    (x :: l).filterMap g = (g x).toList ++ l.filterMap g := by
  cases h : g x <;> simp [h]

/-- The first claim, and then the others. -/
theorem ClaimsSent.cons (h : ClaimSent after (claims i) i (fields i) (record i) s t)
    (k : ClaimsSent after claims fields record l t u) : ClaimsSent after claims fields record (i :: l) s u := by
  have hsent : t.journal.sent = s.journal.sent + 1 := by rw [h.journal]
  refine ⟨sentAll_cons h.journal k.journal, ?_, fun c => ?_⟩
  · rw [k.trips, h.trips, hsent, List.zipIdx_cons, filterMap_cons_toList, List.append_assoc]
  · rw [k.link c, h.link c, hsent, List.zipIdx_cons, filterMap_cons_toList, filterMap_cons_toList]
    simp only [List.append_assoc]

/-- A state that differs in nothing a claim touches. -/
theorem ClaimsSent.of_same (k : ClaimsSent after claims fields record l t u) (hjournal : t.journal = s.journal)
    (htrips : t.trips = s.trips) (hlinks : t.links = s.links) : ClaimsSent after claims fields record l s u := by
  have hlink : ∀ c, t.link c = s.link c := fun c => by rw [State.link, hlinks]; rfl
  refine ⟨sentAll_of_same hjournal k.journal, by rw [k.trips, htrips, hjournal], fun c => ?_⟩
  rw [k.link c, hlink, hjournal]

end

end Sys2Proof.Machine


/-! The conditions at an arrival (R20) and at CLEAR_CONDITION (R36). -/

namespace Sys2Proof.Machine

variable {s t u o : State} {i : EntryIx} {f : ConditionFields} {claim : Claim} {after : Option Stamp} {p : Point}
  {a : Arguments}

/-! ## One entry at an arrival -/

theorem sendClaim_sent (h : claim ≠ .unchanged) (after : Option Stamp) (i : EntryIx) (f : ConditionFields) (v : Nat)
    (s : State) : ClaimSent after claim i f (claimRecord claim i f v s) s (sendClaim after claim i f v s) := by
  cases claim with
  | unchanged => exact absurd rfl h
  | asserted => exact assertAction_sent after i f v s
  | withdrawn => exact withdrawAction_sent after i f (some v) false s

theorem setEntry_self (s : State) (i : EntryIx) : s.setEntry i (s.entry i) = s := by
  simp [State.setEntry, State.setEvaluator, State.entry]

/-- An entry that does not watch the point makes the move that changes nothing. -/
theorem evaluateEntry_eq (p : Point) (after : Option Stamp) (i : EntryIx) (s : State) : evaluateEntry p after i s
    = sendClaim after (arrivalMove s.scanner p (s.entry i)).2 i (s.entry i).fields
        (quantity s.scanner (s.entry i).fields p) (s.setEntry i (arrivalMove s.scanner p (s.entry i)).1) := by
  unfold evaluateEntry arrivalMove watches
  by_cases h : (s.entry i).fields.enable = 1 ∧ (s.entry i).fields.pointA = p.val
  · simp [h]
  · rw [if_neg (by simpa using h), if_neg h]
    exact (setEntry_self s i).symm

theorem evaluateEntry_of_unchanged (h : (arrivalMove s.scanner p (s.entry i)).2 = .unchanged) (after : Option Stamp) :
    evaluateEntry p after i s = s.setEntry i (arrivalMove s.scanner p (s.entry i)).1 := by
  rw [evaluateEntry_eq, h]
  rfl

theorem evaluateEntry_sent (h : (arrivalMove s.scanner p (s.entry i)).2 ≠ .unchanged) (after : Option Stamp) :
    ClaimSent after (arrivalMove s.scanner p (s.entry i)).2 i (s.entry i).fields
      (claimRecord (arrivalMove s.scanner p (s.entry i)).2 i (s.entry i).fields
        (quantity s.scanner (s.entry i).fields p) s)
      s { evaluateEntry p after i s with evaluator := s.evaluator } := by
  rw [evaluateEntry_eq]
  obtain ⟨hframe, hjournal, htrips, hlink⟩ := sendClaim_sent h after i (s.entry i).fields
    (quantity s.scanner (s.entry i).fields p) (s.setEntry i (arrivalMove s.scanner p (s.entry i)).1)
  exact ⟨by rw [hframe]; rfl, hjournal, htrips, hlink⟩

/-- What is kept beside the entries. -/
theorem evaluateEntry_evaluator (p : Point) (after : Option Stamp) (i : EntryIx) (s : State) :
    (evaluateEntry p after i s).evaluator
      = { s.evaluator with entries := (evaluateEntry p after i s).evaluator.entries } := by
  rw [evaluateEntry_eq, sendClaim_frame]
  rfl

theorem evaluateEntry_now (p : Point) (after : Option Stamp) (i : EntryIx) (s : State) :
    (evaluateEntry p after i s).now = s.now := by
  rw [evaluateEntry_eq, sendClaim_frame]
  rfl

/-! ## All entries at an arrival -/

/-- R20: what an arrival of `p` leaves at the Condition Evaluator and on its links when the entries of `l` take it,
`o` being the state in which it arrives. -/
structure Evaluated (p : Point) (after : Option Stamp) (o : State) (l : List EntryIx) (s t : State) : Prop where
  evaluator : t.evaluator = { s.evaluator with entries := t.evaluator.entries }
  entry : ∀ i, t.entry i = if i ∈ l then (arrivalMove o.scanner p (o.entry i)).1 else s.entry i
  claims : ClaimsSent after (fun i => (arrivalMove o.scanner p (o.entry i)).2) (fun i => (o.entry i).fields)
    (fun i => claimRecord (arrivalMove o.scanner p (o.entry i)).2 i (o.entry i).fields
      (quantity o.scanner (o.entry i).fields p) o)
    (l.filter (fun i => decide ((arrivalMove o.scanner p (o.entry i)).2 ≠ .unchanged))) s t

theorem forEach_evaluateEntry (p : Point) (after : Option Stamp) (o : State) : ∀ (l : List EntryIx) (s : State),
    l.Nodup → (∀ i ∈ l, s.entry i = o.entry i) → s.scanner = o.scanner → s.now = o.now →
    Evaluated p after o l s (forEach l (evaluateEntry p after) s)
  | [], s, _, _, _, _ => ⟨rfl, fun i => by simp [forEach_nil], claimsSent_nil rfl rfl rfl⟩
  | i :: l, s, hl, hentry, hscanner, hnow => by
    obtain ⟨hi, hl⟩ := List.nodup_cons.mp hl
    have hsi : s.entry i = o.entry i := hentry i (by simp)
    have hfirst := evaluateEntry_entry p after i
    obtain ⟨hothers, hmoved, hclaims⟩ := forEach_evaluateEntry p after o l (evaluateEntry p after i s) hl
      (fun j hj => by rw [hfirst, if_neg (by rintro rfl; exact hi hj)]; exact hentry j (by simp [hj]))
      ((evaluateEntry_scanner p after i s).trans hscanner) ((evaluateEntry_now p after i s).trans hnow)
    rw [forEach_cons]
    refine ⟨?evaluator, fun j => ?entry, ?claims⟩
    case evaluator => rw [hothers, evaluateEntry_evaluator]
    case entry =>
      rw [hmoved j, hfirst j s, hsi, hscanner]
      by_cases hj : j = i
      · subst hj; simp [hi]
      · simp [hj]
    case claims =>
      by_cases hclaim : (arrivalMove o.scanner p (o.entry i)).2 = .unchanged
      · rw [List.filter_cons_of_neg (by simpa using hclaim)]
        have hfirst := evaluateEntry_of_unchanged (s := s) (by rw [hscanner, hsi]; exact hclaim) after
        exact hclaims.of_same (by rw [hfirst]; rfl) (by rw [hfirst]; rfl) (by rw [hfirst]; rfl)
      · rw [List.filter_cons_of_pos (by simpa using hclaim)]
        have hsent := evaluateEntry_sent (s := s) (by rw [hscanner, hsi]; exact hclaim) after
        rw [hscanner, hsi] at hsent
        have hrecord : ∀ claim v, claimRecord claim i (o.entry i).fields v s = claimRecord claim i (o.entry i).fields v o :=
          fun claim v => by simp only [claimRecord, conditionRecord, hnow]
        rw [hrecord] at hsent
        exact .cons hsent (hclaims.of_same rfl rfl rfl)

theorem evaluate_evaluated (p : Point) (order : List EntryIx) (s : State) :
    Evaluated p (some ⟨.scanner, s.journal.sent⟩) s (inOrder order) s (evaluate p order s) :=
  forEach_evaluateEntry p _ s _ s (inOrder_nodup order) (fun _ _ => rfl) rfl rfl

/-! ## The arrival -/

theorem arrivalMove_rings (sc : Scanner) (rings : Vector Ring 6) (p : Point) (e : LiveEntry) :
    arrivalMove { sc with rings := rings } p e = arrivalMove sc p e := rfl

theorem quantity_rings (sc : Scanner) (rings : Vector Ring 6) (f : ConditionFields) (p : Point) :
    quantity { sc with rings := rings } f p = quantity sc f p := rfl

theorem arrived_sameBut (p : Point) (input : Int) (order : List EntryIx) (s : State) :
    SameBut [.scanner, .mem, .captures] (evaluate p order (takeCount p (saturate input) s)) (arrived p input order s) := by
  simp [arrived]

/-- Settles O34: the arrival's values are in place before the entries take them, and the captures change nothing that
an entry reads. -/
theorem arrivalsAreEvaluated : Obligations.ArrivalsAreEvaluated := by
  intro p input order s hrunning
  refine ⟨mem_inOrder order, inOrder_nodup order, _, exec_sampleArrival_of_running hrunning p input order, ?_⟩
  have hkept := arrived_sameBut p input order s
  have hevaluator : (arrived p input order s).evaluator = (evaluate p order (takeCount p (saturate input) s)).evaluator :=
    captureArrival_evaluator _ _ _
  obtain ⟨hothers, hmoved, hjournal, htrips, hlink⟩ := evaluate_evaluated p order (takeCount p (saturate input) s)
  unfold arrivalClaims
  rw [arrived_scanner]
  simp only [arrivalMove_rings, quantity_rings]
  refine ⟨?evaluator, fun i => ?entry, ?journal, ?trips, fun c => ?link⟩
  case evaluator => rw [hevaluator]; exact hothers
  case entry =>
    rw [State.entry, hevaluator]
    exact (hmoved i).trans (if_pos (mem_inOrder order i))
  case journal => rw [SentAll, hkept .journal (by simp)]; exact hjournal
  case trips => rw [hkept .trips (by simp)]; exact htrips
  case link => rw [State.link, hkept .links (by simp)]; exact hlink c

/-! ## CLEAR_CONDITION -/

theorem clearCondition_of_badArgument (h : 96 ≤ a.word1) : clearCondition a s = (s, ⟨.badArgument, 0, 0⟩) := by
  simp [clearCondition, index_of_le h]

theorem clearCondition_of_inactive (hi : a.word1 = i.val) (h : (s.entry i).state ≠ .active) :
    clearCondition a s = (s, ⟨.wrongState, 0, 0⟩) := by
  simp only [clearCondition, hi, index_val]
  cases hst : (s.entry i).state with
  | active => exact absurd hst h
  | disabled | normal | arming | clearing => rfl

theorem clearCondition_of_unmarked (hi : a.word1 = i.val) (hst : (s.entry i).state = .active)
    (h : ¬((s.entry i).clearSeen = true ∧ (s.entry i).fields.latch = 1)) :
    clearCondition a s = (s, ⟨.stillActive, 0, 0⟩) := by
  simp only [clearCondition, hi, index_val, hst]
  exact if_neg fun k => h k.symm

theorem clearCondition_of_marked (hi : a.word1 = i.val) (hst : (s.entry i).state = .active)
    (hseen : (s.entry i).clearSeen = true) (hlatch : (s.entry i).fields.latch = 1) : clearCondition a s
      = (withdrawAction none i (s.entry i).fields none false (s.setEntry i ((s.entry i).at .normal 0)), ⟨.ok, 0, 0⟩) := by
  simp [clearCondition, hi, hst, hseen, hlatch]

theorem toList_ite_some {α : Type} (q : Prop) [Decidable q] (x : α) :
    (if q then some x else none).toList = if q then [x] else [] := by split <;> rfl

theorem toList_map_ite_some {α β : Type} (g : α → β) (q : Prop) [Decidable q] (x : α) :
    ((if q then some x else none).map g).toList = if q then [g x] else [] := by split <;> rfl

/-- What the withdrawal of CLEAR_CONDITION leaves beside its record and its deliveries. -/
theorem clearedEntry_spec (i : EntryIx) (s : State) :
    let t := withdrawAction none i (s.entry i).fields none false (s.setEntry i ((s.entry i).at .normal 0))
    t = { s with evaluator := t.evaluator, journal := t.journal, links := t.links }
    ∧ t.entry i = (s.entry i).at .normal 0 ∧ (∀ j, j ≠ i → t.entry j = s.entry j) := by
  have h := withdrawnDeliveries_frame i (s.entry i).fields (sendRecord .evaluator none false
    (conditionRecord .conditionCleared i (s.entry i).fields none false (s.setEntry i ((s.entry i).at .normal 0)))
    (s.setEntry i ((s.entry i).at .normal 0)))
  simp only [withdrawAction]
  rw [h]
  exact ⟨rfl, look_put_same _ _ _, fun j hj => look_put_ne _ _ _ _ hj⟩

/-- Settles O19: a latched entry is withdrawn as R31 says; any other is left alone. -/
theorem clearConditionIsTaken : Obligations.ClearConditionIsTaken := by
  intro s k n w1 w2 w3 h
  refine ⟨fun hbad => h.refusal rfl (clearCondition_of_badArgument hbad), fun i hi =>
    ⟨fun hst hseen hlatch => ?cleared, fun hst hunmarked => ?held, fun hst => ?elsewhere⟩⟩
  case held => exact h.refusal rfl (clearCondition_of_unmarked (a := ⟨w1, w2, w3⟩) hi hst hunmarked)
  case elsewhere => exact h.refusal rfl (clearCondition_of_inactive (a := ⟨w1, w2, w3⟩) hi hst)
  case cleared =>
    have hwork := clearCondition_of_marked (a := ⟨w1, w2, w3⟩) (s := writeSlotState k 2 s) hi hst hseen hlatch
    obtain ⟨hframe, hentry, hothers⟩ := clearedEntry_spec i (writeSlotState k 2 s)
    obtain ⟨-, hjournal, -, hlink⟩ := withdrawAction_sent none i ((writeSlotState k 2 s).entry i).fields none false
      ((writeSlotState k 2 s).setEntry i (((writeSlotState k 2 s).entry i).at .normal 0))
    generalize withdrawAction none i ((writeSlotState k 2 s).entry i).fields none false
      ((writeSlotState k 2 s).setEntry i (((writeSlotState k 2 s).entry i).at .normal 0)) = u
      at hwork hframe hentry hothers hjournal hlink
    refine ⟨_, congrArg Host.Outcome.next (h.visitFor_eq rfl hwork), h.answered (by rw [hframe]; rfl) (by simp) (by simp),
      ?frame, ?entry, fun j hj => ?others, ?sent, completeSlot_written_slot (by rw [hframe]), fun c => ?link⟩
    case frame => rw [completeSlot_frame, hframe]; rfl
    case entry => rw [completeSlot_entry, hentry]; rfl
    case others => rw [completeSlot_entry, hothers j hj]; rfl
    case sent => rw [Sent, completeSlot_journal]; exact hjournal
    case link =>
      rw [completeSlot_link, hlink c, claimFoldback_withdrawn, claimEvent_withdrawn, toList_ite_some, toList_map_ite_some]
      rfl

end Sys2Proof.Machine


/-! LOAD_CONDITIONS (R40 to R45): the load begins, its drafts are checked, and the tables switch. -/

namespace Sys2Proof.Machine

variable {s t u o : State} {i : EntryIx} {f : ConditionFields} {after : Option Stamp} {l : Load} {n : Nat}
  {d : EntryIx → ConditionFields} {order : List ArcLine}

/-! ## One entry at the switch -/

/-- R44: a changed entry at the switch. -/
def entrySwitched (f : ConditionFields) : LiveEntry := ⟨f, if f.enable = 1 then .normal else .disabled, 0, false⟩

theorem switchEntry_of_same (h : f = (s.entry i).fields) : switchEntry i f s = s := if_pos h

theorem switchEntry_of_out (h : f ≠ (s.entry i).fields) (hforce : (s.entry i).inForce = false) :
    switchEntry i f s = s.setEntry i (entrySwitched f) := by simp [switchEntry, h, hforce, entrySwitched]

theorem switchEntry_of_inForce (h : f ≠ (s.entry i).fields) (hforce : (s.entry i).inForce = true) :
    switchEntry i f s = (withdrawAction none i (s.entry i).fields none true s).setEntry i (entrySwitched f) := by
  simp [switchEntry, h, hforce, entrySwitched]

theorem withdrawAction_frame (after : Option Stamp) (i : EntryIx) (f : ConditionFields) (value : Option Nat)
    (replaced : Bool) (s : State) : withdrawAction after i f value replaced s = { s with
      journal := (withdrawAction after i f value replaced s).journal
      links := (withdrawAction after i f value replaced s).links } := by
  conv_lhs => rw [withdrawAction, withdrawnDeliveries_frame]
  rw [withdrawAction, withdrawnDeliveries_frame]
  rfl

theorem switchEntry_frame (i : EntryIx) (f : ConditionFields) (s : State) : switchEntry i f s = { s with
    evaluator := { s.evaluator with entries := (switchEntry i f s).evaluator.entries }
    journal := (switchEntry i f s).journal, links := (switchEntry i f s).links } := by
  by_cases h : f = (s.entry i).fields
  · rw [switchEntry_of_same h]
  · cases hforce : (s.entry i).inForce with
    | false => rw [switchEntry_of_out h hforce]; rfl
    | true => rw [switchEntry_of_inForce h hforce, withdrawAction_frame]; rfl

theorem switchEntry_entry (i j : EntryIx) (f : ConditionFields) (s : State) : (switchEntry i f s).entry j
    = if j = i then (if f = (s.entry i).fields then s.entry i else entrySwitched f) else s.entry j := by
  by_cases h : f = (s.entry i).fields
  · rw [switchEntry_of_same h, if_pos h]
    split
    · next hj => rw [hj]
    · rfl
  · rw [if_neg h]
    cases hforce : (s.entry i).inForce with
    | false => rw [switchEntry_of_out h hforce]; exact look_put _ _ _ _
    | true => rw [switchEntry_of_inForce h hforce, withdrawAction_frame]; exact look_put _ _ _ _

/-! ## All entries at the switch (R44, R45) -/

/-- What the switch leaves at the Condition Evaluator and on its links when the entries of `l` have switched to the
drafts `d`, `o` being the state in which the load ends. -/
structure EntriesSwitched (d : EntryIx → ConditionFields) (o : State) (l : List EntryIx) (s t : State) : Prop where
  frame : t = { s with evaluator := { s.evaluator with entries := t.evaluator.entries }, journal := t.journal,
                       links := t.links }
  entry : ∀ i, t.entry i =
    if i ∈ l then (if d i = (o.entry i).fields then o.entry i else entrySwitched (d i)) else s.entry i
  claims : ClaimsSent none (fun _ => .withdrawn) (fun i => (o.entry i).fields)
    (fun i => conditionRecord .conditionCleared i (o.entry i).fields none true o)
    (l.filter (fun i => decide (d i ≠ (o.entry i).fields) && (o.entry i).inForce)) s t

theorem forEach_switchEntry (d : EntryIx → ConditionFields) (o : State) : ∀ (l : List EntryIx) (s : State), l.Nodup →
    (∀ i ∈ l, s.entry i = o.entry i) → s.now = o.now →
    EntriesSwitched d o l s (forEach l (fun i => switchEntry i (d i)) s)
  | [], s, _, _, _ => ⟨rfl, fun i => by simp [forEach_nil], claimsSent_nil rfl rfl rfl⟩
  | i :: l, s, hl, hentry, hnow => by
    obtain ⟨hi, hl⟩ := List.nodup_cons.mp hl
    have hsi : s.entry i = o.entry i := hentry i (by simp)
    have hframe := switchEntry_frame i (d i) s
    have hfirst := fun j => switchEntry_entry i j (d i) s
    obtain ⟨hothers, hmoved, hclaims⟩ := forEach_switchEntry d o l (switchEntry i (d i) s) hl
      (fun j hj => by rw [hfirst, if_neg (by rintro rfl; exact hi hj)]; exact hentry j (by simp [hj]))
      (by rw [hframe]; exact hnow)
    rw [forEach_cons]
    refine ⟨?frame, fun j => ?entry, ?claims⟩
    case frame => rw [hothers, hframe]
    case entry =>
      rw [hmoved j, hfirst j, hsi]
      by_cases hj : j = i
      · subst hj; simp [hi]
      · simp [hj]
    case claims =>
      by_cases hsame : d i = (s.entry i).fields
      · rw [List.filter_cons_of_neg (by rw [← hsi]; simp [hsame])]
        rw [switchEntry_of_same hsame] at hclaims ⊢
        exact hclaims
      · cases hforce : (s.entry i).inForce with
        | false =>
          rw [List.filter_cons_of_neg (by rw [← hsi]; simp [hforce])]
          rw [switchEntry_of_out hsame hforce] at hclaims ⊢
          exact hclaims.of_same rfl rfl rfl
        | true =>
          rw [List.filter_cons_of_pos (by rw [← hsi]; simp [hforce, hsame])]
          rw [switchEntry_of_inForce hsame hforce] at hclaims ⊢
          refine .cons (t := withdrawAction none i (s.entry i).fields none true s) ?_ (hclaims.of_same rfl rfl rfl)
          have hsent := withdrawAction_sent none i (s.entry i).fields none true s
          rw [hsi] at hsent ⊢
          simpa only [conditionRecord, hnow] using hsent

/-! ## The arc lines at the switch (R9) -/

/-- What an asserted line delivers to a channel at the switch. -/
def arcEvents (old new : SiteSettings) (c : Channel) (l : ArcLine) : List ScannerEvent :=
  if covers new l c && !covers old l c then [.strike l]
  else if covers old l c && !covers new l c then [.arcCleared l]
  else []

theorem mem_arcEvents {old new : SiteSettings} {c : Channel} {l : ArcLine} {e : ScannerEvent} :
    e ∈ arcEvents old new c l ↔ (e = .strike l ∧ covers new l c = true ∧ covers old l c = false)
      ∨ (e = .arcCleared l ∧ covers old l c = true ∧ covers new l c = false) := by
  unfold arcEvents
  cases covers new l c <;> cases covers old l c <;> simp

theorem arcEvents_nodup (old new : SiteSettings) (c : Channel) (l : ArcLine) : (arcEvents old new c l).Nodup := by
  unfold arcEvents
  split_ifs <;> simp

theorem switchArc_eq (old new : SiteSettings) (l : ArcLine) (c : Channel) (s : State) : switchArc old new l c s
    = s.setLink c { s.link c with fromScanner := (s.link c).fromScanner
        ++ (arcEvents old new c l).map (fun e => ⟨e, s.journal.sent⟩) } := by
  unfold switchArc arcEvents
  split_ifs
  · rfl
  · rfl
  · simp only [List.map_nil, List.append_nil]
    exact (State.setLink_self s c).symm

/-- What a line, asserted or not, delivers to a channel at the switch. -/
def lineEvents (sc : Scanner) (old new : SiteSettings) (c : Channel) (l : ArcLine) : List ScannerEvent :=
  if look sc.arcAsserted l = true then arcEvents old new c l else []

/-- What the lines of `l` leave when they have delivered their events at the switch. -/
structure ArcsSwitched (old new : SiteSettings) (l : List ArcLine) (s t : State) : Prop where
  frame : t = { s with links := t.links }
  link : ∀ c, t.link c = { s.link c with fromScanner := (s.link c).fromScanner
    ++ (l.flatMap (lineEvents s.scanner old new c)).map (fun e => ⟨e, s.journal.sent⟩) }

theorem switchLine_switched (old new : SiteSettings) (l : ArcLine) (s : State) : ArcsSwitched old new [l] s
    (if look s.scanner.arcAsserted l then forEach allChannels (switchArc old new l) s else s) := by
  by_cases h : look s.scanner.arcAsserted l = true
  · obtain ⟨hframe, hlink⟩ := forEach_setLink (J := s.journal) (f := switchArc old new l) (fun c x => { x with
          fromScanner := x.fromScanner ++ (arcEvents old new c l).map (fun e => ⟨e, s.journal.sent⟩) })
      (fun c t ht => by rw [switchArc_eq, ht]) allChannels s allChannels_nodup rfl
    rw [if_pos h]
    exact ⟨hframe, fun c => by rw [hlink c, if_pos (mem_allChannels c)]; simp [lineEvents, h]⟩
  · rw [if_neg h]
    exact ⟨rfl, fun c => by simp [lineEvents, h]⟩

theorem forEach_switchLine (old new : SiteSettings) : ∀ (l : List ArcLine) (s : State), ArcsSwitched old new l s
    (forEach l (fun l s => if look s.scanner.arcAsserted l then forEach allChannels (switchArc old new l) s else s) s)
  | [], s => ⟨rfl, fun c => by simp [forEach_nil]⟩
  | x :: l, s => by
    obtain ⟨hframe, hlink⟩ := switchLine_switched old new x s
    rw [forEach_cons]
    generalize (if look s.scanner.arcAsserted x then forEach allChannels (switchArc old new x) s else s) = u at *
    obtain ⟨hrest, hrestLink⟩ := forEach_switchLine old new l u
    refine ⟨by rw [hrest, hframe], fun c => ?_⟩
    have hscanner : u.scanner = s.scanner := by rw [hframe]
    have hjournal : u.journal = s.journal := by rw [hframe]
    rw [hrestLink c, hlink c, hscanner, hjournal]
    simp

/-! ## The switch (R44) -/

/-- What the switch leaves. -/
structure TablesSwitched (d : EntryIx → ConditionFields) (settings : SiteSettings) (order : List ArcLine)
    (withdraws : List EntryIx) (s t : State) : Prop where
  frame : t = { s with evaluator := t.evaluator, journal := t.journal, links := t.links }
  evaluator : t.evaluator = { s.evaluator with entries := t.evaluator.entries, settings := settings, configured := true }
  entry : ∀ i, t.entry i = if d i = (s.entry i).fields then s.entry i else entrySwitched (d i)
  sent : SentAll s t .evaluator none (withdraws.map
    (fun i => conditionRecord .conditionCleared i (s.entry i).fields none true s))
  link : ∀ c, t.link c = { s.link c with
    fromScanner := (s.link c).fromScanner
      ++ ((inOrder order).flatMap (lineEvents s.scanner s.evaluator.settings settings c)).map
        (fun e => ⟨e, s.journal.sent + withdraws.length⟩)
    foldback := (s.link c).foldback ++ withdraws.filterMap (fun i => claimFoldback .withdrawn i (s.entry i).fields c)
    fromEvaluator := (s.link c).fromEvaluator ++ (withdraws.zipIdx s.journal.sent).filterMap (fun x =>
      (claimEvent .withdrawn x.1 (s.entry x.1).fields c).map (fun e => ⟨e, x.2 + 1⟩)) }

theorem forEach_zip_map {α β : Type} (g : α → β) (step : α × β → State → State) : ∀ (l : List α) (s : State),
    forEach (l.zip (l.map g)) step s = forEach l (fun x => step (x, g x)) s
  | [], _ => rfl
  | _ :: l, _ => forEach_zip_map g step l _

theorem switchTables_switched (d : EntryIx → ConditionFields) (settings : SiteSettings) (order : List ArcLine)
    (s : State) : TablesSwitched d settings order
      ((List.finRange 96).filter (fun i => decide (d i ≠ (s.entry i).fields) && (s.entry i).inForce)) s
      (switchTables ((List.finRange 96).map d) settings order s) := by
  simp only [switchTables]
  rw [forEach_zip_map]
  obtain ⟨hframe, hentry, hjournal, htrips, hlink⟩ := forEach_switchEntry d s (List.finRange 96) s
    (List.nodup_finRange 96) (fun _ _ => rfl) rfl
  generalize forEach (List.finRange 96) (fun i => switchEntry i (d i)) s = u at *
  obtain ⟨harcs, harcLink⟩ := forEach_switchLine s.evaluator.settings settings (inOrder order)
    (u.setEvaluator { u.evaluator with settings := settings, configured := true })
  rw [switchArcs]
  generalize forEach (inOrder order) _ (u.setEvaluator _) = v at *
  have hsent : u.journal.sent = s.journal.sent + ((List.finRange 96).filter (fun i =>
      decide (d i ≠ (s.entry i).fields) && (s.entry i).inForce)).length := by rw [hjournal]; simp
  refine ⟨?frame, ?evaluator, fun i => ?entry, ?sent, fun c => ?link⟩
  case frame => rw [harcs, hframe]; rfl
  case evaluator => rw [harcs, hframe]; rfl
  case entry =>
    have hsame : v.entry i = u.entry i := by rw [harcs]; rfl
    rw [hsame, hentry i, if_pos (List.mem_finRange i)]
  case sent =>
    have hsame : v.journal = u.journal := by rw [harcs]; rfl
    rw [SentAll, hsame]
    exact hjournal
  case link =>
    have hscanner : u.scanner = s.scanner := by rw [hframe]
    have hlinkU : (u.setEvaluator { u.evaluator with settings := settings, configured := true }).link c = u.link c := rfl
    have hscannerU : (u.setEvaluator { u.evaluator with settings := settings, configured := true }).scanner = s.scanner :=
      hscanner
    have hjournalU : (u.setEvaluator { u.evaluator with settings := settings, configured := true }).journal.sent
        = u.journal.sent := rfl
    rw [harcLink c, hlinkU, hscannerU, hjournalU, hlink c, hsent]

/-! ## The end of a load (R43, R44) -/

/-- A load that has read every draft. -/
theorem Load.readTo_all (h : l.drafts.length ≤ 96) (m : Memory) : l.readTo m 97
    = ⟨l.slot, (List.finRange 96).map (l.draftAt m), some (l.settingsAt m)⟩ := by
  rw [Load.readTo_eq h]
  simp

theorem endLoad_of_bad {place field : Nat} (h : l.drafts.length ≤ 96)
    (hbad : firstBadPlace ((List.finRange 96).map (l.draftAt s.mem)) (l.settingsAt s.mem) = some (place, field)) :
    endLoad (l.readTo s.mem 97) order s
      = (s.setEvaluator { s.evaluator with load := none }, ⟨.tableError, place, field⟩) := by
  rw [Load.readTo_all h]
  simp only [endLoad, Option.getD_some, hbad]

theorem endLoad_of_good (h : l.drafts.length ≤ 96)
    (hgood : firstBadPlace ((List.finRange 96).map (l.draftAt s.mem)) (l.settingsAt s.mem) = none) :
    endLoad (l.readTo s.mem 97) order s
      = (switchTables ((List.finRange 96).map (l.draftAt s.mem)) (l.settingsAt s.mem) order
          (s.setEvaluator { s.evaluator with load := none }), ⟨.ok, 0, 0⟩) := by
  rw [Load.readTo_all h]
  simp only [endLoad, Option.getD_some, hgood]

theorem exec_loadEnd_of {reply : Reply} (hload : s.evaluator.load = some l)
    (h : endLoad (l.readTo s.mem 97) order s = (u, reply)) :
    exec (.loadEnd order) s = .next (completeSlot l.slot reply u) := by
  show execLoadEnd order s = _
  simp only [execLoadEnd, hload, h]

theorem completeSlot_answered {k : SlotIx} {reply : Reply} (hsweep : s.handler.sweep = some ⟨k.val, n⟩)
    (hu : u.handler = s.handler) (h1 : reply.detail1 < 65536) (h2 : reply.detail2 < 65536) :
    Answered s (completeSlot k reply u) k n reply := by
  obtain ⟨hdone, hcode, hdetail1, hdetail2⟩ := completeSlot_words k reply u h1 h2
  exact ⟨hdone, hcode, hdetail1, hdetail2, by rw [completeSlot_handler k reply u n (hu ▸ hsweep), hu]⟩

theorem completeSlot_memoryBut_of {k : SlotIx} {reply : Reply} (hu : u.mem = s.mem) :
    MemoryBut (slotBytes k) s (completeSlot k reply u) := by
  have hu : MemoryBut (slotBytes k) s u := .of_mem hu
  exact hu.trans (completeSlot_memoryBut k reply u)

theorem checkCondition_field_le {field : Nat} (h : checkCondition f = some field) : field ≤ 13 := by
  have henable : f.enable ≠ 0 := fun k => by simp [(checkCondition_spec f).1 k] at h
  exact firstFailing_le (h ▸ (checkCondition_spec f).2 henable)

theorem checkSettings_field_le {st : SiteSettings} {field : Nat} (h : checkSettings st = some field) : field ≤ 5 :=
  firstFailing_le (h ▸ checkSettings_spec st)

/-- A failing place fits the reply. -/
theorem firstBadPlace_le {drafts : List ConditionFields} {st : SiteSettings} {place field : Nat}
    (hlength : drafts.length ≤ 96) (h : firstBadPlace drafts st = some (place, field)) : place ≤ 96 ∧ field ≤ 13 := by
  have hspec := firstBadPlace_spec drafts st
  rw [h] at hspec
  rcases hspec with ⟨f, hf, hfield, -⟩ | ⟨hplace, -, hfield⟩
  · obtain ⟨hlt, -⟩ := List.getElem?_eq_some_iff.mp hf
    exact ⟨by omega, checkCondition_field_le hfield⟩
  · have := checkSettings_field_le hfield
    omega

/-! ## The load begins, and is refused -/

theorem takeLoad_frame (k : SlotIx) (s : State) : takeLoad k s
    = { s with mem := (takeLoad k s).mem, evaluator := { s.evaluator with load := some ⟨k, [], none⟩ } } := rfl

theorem visiting_of_load (h : s.evaluator.load ≠ none) : visiting s = none := by
  obtain ⟨l, hl⟩ := Option.ne_none_iff_exists'.mp h
  unfold visiting
  rw [hl]
  cases s.handler.sweep <;> rfl

theorem look_arcScope_readSettings (m : Memory) :
    ∀ x : ArcLine, look (readSettings m).arcScope x = readByte m (0x0044 + x.val) :=
  Fin.forall_fin_succ.mpr ⟨rfl, by simp only [Fin.forall_fin_succ]; exact ⟨rfl, rfl, rfl, rfl, rfl, rfl, rfl, nofun⟩⟩

/-- Settles O16: a load holds the sweep, and its first failing place fits the reply. -/
theorem loadBeginsAndIsRefused : Obligations.LoadBeginsAndIsRefused := by
  refine ⟨fun s => ⟨fun k n w1 w2 w3 h => ?begins, fun l n order place field hload hsweep hlength hbad => ?refused⟩,
    fun m i => rfl, fun m => ⟨rfl, look_arcScope_readSettings m, rfl, rfl, rfl⟩, checkCondition_spec, checkSettings_spec,
    fun drafts st _ => firstBadPlace_spec drafts st⟩
  case begins =>
    have hoffered : offered (some .loadConditions) s = some k := offered_of h
    refine ⟨takeLoad k s, by show execLoadConditions s = _; simp only [execLoadConditions, hoffered], takeLoad_frame k s,
      readNum_writeBytes_same _ _ _ _, writeSlotState_memoryBut k 2 s, ?_⟩
    show execSlotVisit (takeLoad k s) = _
    have hvisiting : visiting (takeLoad k s) = none := visiting_of_load nofun
    simp only [execSlotVisit, hvisiting]
  case refused =>
    obtain ⟨hplace, hfield⟩ := firstBadPlace_le (by simp) hbad
    exact ⟨_, exec_loadEnd_of hload (endLoad_of_bad hlength hbad), by rw [completeSlot_frame]; rfl,
      completeSlot_answered hsweep rfl (Nat.lt_of_le_of_lt hplace (by decide)) (Nat.lt_of_le_of_lt hfield (by decide)),
      completeSlot_memoryBut_of rfl⟩

/-! ## The switch, and the arc lines at it -/

theorem switchTables_load_switched (l : Load) (order : List ArcLine) (s : State) :
    TablesSwitched (l.draftAt s.mem) (l.settingsAt s.mem) order (switchWithdraws s l)
      (s.setEvaluator { s.evaluator with load := none })
      (switchTables ((List.finRange 96).map (l.draftAt s.mem)) (l.settingsAt s.mem) order
        (s.setEvaluator { s.evaluator with load := none })) := by
  have h := switchTables_switched (l.draftAt s.mem) (l.settingsAt s.mem) order
    (s.setEvaluator { s.evaluator with load := none })
  exact h

/-- Settles O17: the entries switch in index order, each change of one in force sending its withdrawal. -/
theorem loadSwitchesTheTable : Obligations.LoadSwitchesTheTable := by
  intro s l n order hload hlength hsweep hgood
  refine ⟨_, exec_loadEnd_of hload (endLoad_of_good hlength hgood), ?_⟩
  obtain ⟨hframe, hevaluator, hentry, hsent, hlink⟩ := switchTables_load_switched l order s
  generalize switchTables _ _ order (s.setEvaluator _) = u at *
  refine ⟨?frame, completeSlot_answered hsweep (by rw [hframe]; rfl) (by simp) (by simp),
    completeSlot_memoryBut_of (by rw [hframe]; rfl), ?settings, ?configured, ?load, fun i => ?entry, ?sent, fun c => ?link⟩
  case frame => rw [completeSlot_frame, hframe]; rfl
  case settings => rw [completeSlot_evaluator, hevaluator]
  case configured => rw [completeSlot_evaluator, hevaluator]
  case load => rw [completeSlot_evaluator, hevaluator]; rfl
  case entry => rw [completeSlot_entry]; exact hentry i
  case sent => rw [SentAll, completeSlot_journal]; exact hsent
  case link =>
    rw [completeSlot_link, hlink c]
    simp only [claimFoldback_withdrawn, claimEvent_withdrawn, apply_ite (Option.map _), Option.map_some, Option.map_none]
    rfl

theorem strike_mem_lineEvents {sc : Scanner} {old new : SiteSettings} {c : Channel} {x a : ArcLine} :
    ScannerEvent.strike a ∈ lineEvents sc old new c x
      ↔ a = x ∧ look sc.arcAsserted a = true ∧ covers new a c = true ∧ covers old a c = false := by
  unfold lineEvents
  split
  · next h => rw [mem_arcEvents]; simp; rintro rfl; simp [h]
  · next h => simp; rintro rfl k; exact absurd k h

theorem arcCleared_mem_lineEvents {sc : Scanner} {old new : SiteSettings} {c : Channel} {x a : ArcLine} :
    ScannerEvent.arcCleared a ∈ lineEvents sc old new c x
      ↔ a = x ∧ look sc.arcAsserted a = true ∧ covers old a c = true ∧ covers new a c = false := by
  unfold lineEvents
  split
  · next h => rw [mem_arcEvents]; simp; rintro rfl; simp [h]
  · next h => simp; rintro rfl k; exact absurd k h

/-- An event at the switch is of the line that sends it. -/
theorem mem_lineEvents {sc : Scanner} {old new : SiteSettings} {c : Channel} {x : ArcLine} {e : ScannerEvent}
    (h : e ∈ lineEvents sc old new c x) : e = .strike x ∨ e = .arcCleared x := by
  unfold lineEvents at h
  split at h
  · exact (mem_arcEvents.mp h).imp And.left And.left
  · simp at h

theorem lineEvents_nodup (sc : Scanner) (old new : SiteSettings) (c : Channel) {lines : List ArcLine}
    (h : lines.Nodup) : (lines.flatMap (lineEvents sc old new c)).Nodup := by
  refine List.nodup_flatMap.mpr ⟨fun x _ => ?_, h.imp fun {x y} hxy => ?_⟩
  · unfold lineEvents
    split
    · exact arcEvents_nodup old new c x
    · exact List.nodup_nil
  · intro e hx hy
    rcases mem_lineEvents hx with rfl | rfl <;> rcases mem_lineEvents hy with k | k <;> simp_all

/-- Settles O18: the events of the asserted lines, line by line. -/
theorem arcLinesAtTheSwitch : Obligations.ArcLinesAtTheSwitch := by
  intro s l n order _ hload hlength hsweep hgood
  refine ⟨_, exec_loadEnd_of hload (endLoad_of_good hlength hgood), ?_⟩
  obtain ⟨hframe, -, -, -, hlink⟩ := switchTables_load_switched l order s
  generalize switchTables _ _ order (s.setEvaluator _) = u at *
  refine ⟨by rw [completeSlot_scanner, hframe]; rfl, fun c =>
    ⟨(inOrder order).flatMap (lineEvents s.scanner s.evaluator.settings (l.settingsAt s.mem) c), ?sent, fun a => ?strike,
      fun a => ?cleared, ?opened, ?closed, lineEvents_nodup _ _ _ c (inOrder_nodup order)⟩⟩
  case sent => rw [completeSlot_link, hlink c]; rfl
  case strike => simp [List.mem_flatMap, strike_mem_lineEvents, mem_inOrder]
  case cleared => simp [List.mem_flatMap, arcCleared_mem_lineEvents, mem_inOrder]
  case opened =>
    rw [List.mem_flatMap]
    rintro ⟨x, -, hx⟩
    rcases mem_lineEvents hx with h | h <;> cases h
  case closed =>
    rw [List.mem_flatMap]
    rintro ⟨x, -, hx⟩
    rcases mem_lineEvents hx with h | h <;> cases h

end Sys2Proof.Machine


/-! The laws of the card: what each reads, and that it holds of a card as it leaves a reset. -/

namespace Sys2Proof.Machine

variable {s t : State} {c : Channel} {p : PositionIx}

/-! ## What each law reads -/

/-- The law of a channel reads its own blocks, and its place at the Arbiter. -/
theorem ChannelLaw.congr (h : ChannelLaw s c) (hchan : t.chan c = s.chan c) (hstrike : t.strike c = s.strike c)
    (hlevels : { t.resolver c with activeSet := [] } = { s.resolver c with activeSet := [] })
    (hqueue : c ∈ t.arbiter.high ++ t.arbiter.low ↔ c ∈ s.arbiter.high ++ s.arbiter.low)
    (hengine : t.arbiter.engine = .held c ↔ s.arbiter.engine = .held c) : ChannelLaw t c := by
  have hdrive : (t.resolver c).drive = (s.resolver c).drive := by injection hlevels
  have hresolved : (t.resolver c).resolved = (s.resolver c).resolved := by
    have hsame := congrArg DriveResolver.resolved hlevels
    exact hsame
  have hramp : (t.resolver c).ramp = (s.resolver c).ramp := by injection hlevels
  have htarget : (t.resolver c).target = (s.resolver c).target := by injection hlevels
  have hpositions : (t.resolver c).positions = (s.resolver c).positions := by injection hlevels
  have hfoldback : (t.resolver c).foldback = (s.resolver c).foldback := by injection hlevels
  have hmarks : (t.resolver c).floorMarks = (s.resolver c).floorMarks := by injection hlevels
  constructor
  case muted => rw [hchan]; exact h.muted
  case silent => rw [hchan, hdrive]; exact h.silent
  case driven => rw [hdrive, hresolved]; exact h.driven
  case ramped => rw [hchan, hramp]; exact h.ramped
  case asked => rw [hchan, hstrike]; exact h.asked
  case timed => rw [hstrike]; exact h.timed
  case queued => rw [hchan, hqueue]; exact h.queued
  case holds => rw [hchan, hengine]; exact h.holds
  case atRest => rw [hchan]; exact h.atRest
  case waits => rw [hchan]; exact h.waits
  case unprofiled => rw [hchan]; exact h.unprofiled
  case profiled => rw [hchan]; exact h.profiled
  case limited => rw [hchan, htarget, hpositions]; exact h.limited
  case cleared => rw [hchan, hstrike, hfoldback, hmarks]; exact h.cleared
  case counted => rw [hchan, hstrike]; exact h.counted
  case spared => rw [hchan, hstrike]; exact h.spared
  case floored => rw [hchan, hfoldback]; exact h.floored

theorem reads_channelLaws : Reads ChannelLaws [.chans, .strikes, .levels, .arbiter] := fun s t hsame h => by
  have hchans : t.chans = s.chans := hsame .chans (by simp)
  have hstrikes : t.strikes = s.strikes := hsame .strikes (by simp)
  have harbiter : t.arbiter = s.arbiter := hsame .arbiter (by simp)
  refine ⟨fun c => (h.1 c).congr (by rw [State.chan, hchans]; rfl) (by rw [State.strike, hstrikes]; rfl)
    (hsame .levels (by simp) c) (by rw [harbiter]) (by rw [harbiter]), ?_, ?_⟩
  · rw [harbiter]; exact h.2.once
  · rw [harbiter]; exact h.2.granted

theorem reads_interlockLaw : Reads InterlockLaw [.interlock, .fromScanner, .chans] := fun s t hsame h hopen c => by
  have hinterlock : t.scanner.interlockClosed = s.scanner.interlockClosed := hsame .interlock (by simp)
  have hchans : t.chans = s.chans := hsame .chans (by simp)
  have hevents : interlockEvents (t.link c) = interlockEvents (s.link c) := by
    rw [interlockEvents, hsame .fromScanner (by simp) c]
    rfl
  rw [hevents, State.chan, hchans]
  exact h (hinterlock.symm.trans hopen) c

/-- The law of a position reads its record, and its channel's profile. -/
theorem PositionLaw.congr (h : PositionLaw s p) (hposition : t.position p = s.position p)
    (hprofile : (t.chan (channelOf p)).profile = (s.chan (channelOf p)).profile) : PositionLaw t p := by
  constructor
  case biased => rw [hposition]; exact h.biased
  case inService => rw [hposition, hprofile]; exact h.inService
  case fit => rw [hposition, hprofile]; exact h.fit
  case seated => rw [hposition]; exact h.seated
  case qualifying => rw [hposition]; exact h.qualifying
  case reading => rw [hposition]; exact h.reading

theorem CountLaw.congr (h : CountLaw s c) (hprofile : (t.chan c).profile = (s.chan c).profile)
    (hcounts : (t.link c).counts = (s.link c).counts) (hactive : activeCount t c = activeCount s c)
    (hpositions : (t.resolver c).positions = (s.resolver c).positions) : CountLaw t c := by
  unfold CountLaw
  rw [hprofile, hcounts, hactive, hpositions]
  exact h

theorem reads_positionLaws : Reads PositionLaws [.positions, .profiles, .counts, .ceilings] := fun s t hsame h => by
  have hpositions : t.positions = s.positions := hsame .positions (by simp)
  have hprofiles : ∀ c, (t.chan c).profile = (s.chan c).profile := hsame .profiles (by simp)
  refine ⟨fun p => (h.1 p).congr (by rw [State.position, hpositions]; rfl) (hprofiles _), fun c =>
    (h.2 c).congr (hprofiles c) (hsame .counts (by simp) c) ?_ (hsame .ceilings (by simp) c)⟩
  unfold activeCount
  simp only [State.position, hpositions]

theorem reads_entryLaws : Reads EntryLaws [.entries, .settings] := fun s t hsame h => by
  have hentries : t.evaluator.entries = s.evaluator.entries := hsame .entries (by simp)
  have hsettings : t.evaluator.settings = s.evaluator.settings := hsame .settings (by simp)
  unfold EntryLaws
  rw [hsettings]
  exact ⟨fun i => by rw [State.entry, hentries]; exact h.1 i, h.2⟩

theorem reads_foldbackLaw : Reads FoldbackLaw [.entries, .foldback, .activeSets] := fun s t hsame h c i => by
  have hentries : t.evaluator.entries = s.evaluator.entries := hsame .entries (by simp)
  rw [hsame .foldback (by simp) c, hsame .activeSets (by simp) c, State.entry, hentries]
  exact h c i

/-! ## The reset values -/

theorem channelLaw_reset : ∀ c, ChannelLaw State.reset c := fun c => by
  have hchan : State.reset.chan c = ChannelController.reset := look_replicate _ c
  have hstrike : State.reset.strike c = StrikeAccounting.reset := look_replicate _ c
  have hresolver : State.reset.resolver c = DriveResolver.reset := look_replicate _ c
  have harbiter : State.reset.arbiter = Arbiter.reset := rfl
  constructor <;> simp [hchan, hstrike, hresolver, harbiter, ChannelController.reset, StrikeAccounting.reset,
    DriveResolver.reset, Arbiter.reset, ChannelState.live, ChannelState.ramped, ChannelState.waiting]

theorem channelLaws_reset : ChannelLaws State.reset := ⟨channelLaw_reset, by decide, fun _ => rfl⟩

/-- A card whose channels are all in reset has no channel on air. -/
theorem interlockLaw_of_reset (hchans : t.chans = State.reset.chans) (hlinks : t.links = State.reset.links) :
    InterlockLaw t := fun _ c => by
  have hchan : t.chan c = ChannelController.reset := by rw [State.chan, hchans]; exact look_replicate _ c
  have hlink : t.link c = ChannelLinks.reset := by rw [State.link, hlinks]; exact look_replicate _ c
  rw [hchan, hlink]
  exact ⟨nofun, fun _ => .inl rfl⟩

/-- R125: the positions as the card leaves reset, with a presence timer running for a line that is active. -/
theorem positionLaws_of_reset (hpositions : ∀ p, ∃ present, t.position p = positionFrom present)
    (hchans : t.chans = State.reset.chans) : PositionLaws t := by
  have hprofile : ∀ c, (t.chan c).profile = none := fun c => by
    have hchan : t.chan c = ChannelController.reset := by rw [State.chan, hchans]; exact look_replicate _ c
    rw [hchan]
    rfl
  refine ⟨fun p => ?_, fun c p hp => by rw [hprofile] at hp; cases hp⟩
  obtain ⟨present, hposition⟩ := hpositions p
  constructor <;> simp [hposition, positionFrom, PositionRecord.reset]

theorem entryLaw_blank : EntryLaw LiveEntry.blank := by
  constructor <;> simp [LiveEntry.blank, ConditionFields.blank, checkCondition]

theorem entryLaws_reset : EntryLaws State.reset :=
  ⟨fun i => by rw [show State.reset.entry i = LiveEntry.blank from look_replicate _ i]; exact entryLaw_blank, by decide⟩

theorem foldbackLaw_reset : FoldbackLaw State.reset := fun c i => by
  rw [show State.reset.entry i = LiveEntry.blank from look_replicate _ i,
    show State.reset.link c = ChannelLinks.reset from look_replicate _ c,
    show State.reset.resolver c = DriveResolver.reset from look_replicate _ c]
  simp [ChannelLinks.reset, DriveResolver.reset, LiveEntry.blank, bearsOn, LiveEntry.inForce]

/-- R160: a card with every block at its reset value but the positions, which take their presence lines, is at rest. -/
theorem restLaw_of_reset (hpositions : ∀ p, ∃ present, t.position p = positionFrom present)
    (hchans : t.chans = State.reset.chans) (hresolvers : t.resolvers = State.reset.resolvers)
    (hstrikes : t.strikes = State.reset.strikes) (hsweep : t.handler.sweep = none) (hload : t.evaluator.load = none) :
    RestLaw t := fun _ => by
  refine ⟨hsweep, hload, fun c => ?_, fun p => ?_⟩
  · have hchan : t.chan c = ChannelController.reset := by rw [State.chan, hchans]; exact look_replicate _ c
    have hresolver : t.resolver c = DriveResolver.reset := by rw [State.resolver, hresolvers]; exact look_replicate _ c
    have hstrike : t.strike c = StrikeAccounting.reset := by rw [State.strike, hstrikes]; exact look_replicate _ c
    rw [hchan, hresolver, hstrike]
    exact ⟨rfl, rfl, rfl, rfl⟩
  · obtain ⟨present, hposition⟩ := hpositions p
    rw [hposition]
    exact ⟨nofun, nofun, rfl⟩

/-- Settles O54: law by law, from the reset values. -/
theorem resetHoldsTheLaws : Obligations.ResetHoldsTheLaws :=
  ⟨wf_nil, channelLaws_reset, interlockLaw_of_reset rfl rfl,
    positionLaws_of_reset (fun p => ⟨false, look_replicate _ p⟩) rfl, entryLaws_reset, foldbackLaw_reset,
    captureLaw_of_reset rfl, statusLaw_of_reset rfl, restLaw_of_reset (fun p => ⟨false, look_replicate _ p⟩) rfl rfl rfl rfl rfl⟩

/-! ## Resets keep the laws -/

/-- A law that reads only what every reset brings to its reset value is kept by every reset. -/
theorem Reads.leads_of_isReset {P : State → Prop} {rs : List Part} (hP : Reads P rs) (hreset : P State.reset)
    (hrs : ∀ (s : State) (phase : Phase) (positions : Vector PositionRecord 24) (scanner : Scanner) (mem : Memory), ∀ p ∈ rs,
      p.Same State.reset { State.reset with
        phase := phase, positions := positions, scanner := scanner, mem := mem, pending := s.pending })
    {cmd : Instr} (hcmd : isReset cmd = true) (h : P s) : Leads P (exec cmd s) :=
  Machine.leads_of_isReset hcmd (fun powerOn => hP _ _ (hrs s (.held powerOn) _ _ s.mem) hreset)
    (fun powerOn _ => hP _ _ (hrs s _ _ _ (if powerOn then [] else zeroRange s.mem Config.statusBase Config.statusSize))
      hreset) (hP _ _ (hrs s .unpowered _ _ _) hreset) h

end Sys2Proof.Machine


/-! What each command of a channel can lead to: the property has to be shown only of what the command does, in the
state in which it does it. -/

namespace Sys2Proof.Machine

variable {P : State → Prop} {s : State} {c : Channel} {a : Arguments}

/-! ## Deliveries that a Channel Controller takes -/

/-- A strike taken from a link: no interlock event is taken with it. -/
theorem leads_strike {link : StrikeLink} (h : P s)
    (htake : ∀ cause after left, interlockEvents left = interlockEvents (s.link c) →
      P (takeStrike c cause after (s.setLink c left))) : Leads P (exec (.strike c link) s) := by
  show Leads P (execStrike c link s)
  unfold execStrike
  split
  case h_1 hscanner => exact leads_next.mpr (htake _ _ _ (by simp only [interlockEvents, hscanner]; rfl))
  case h_2 => exact leads_next.mpr (htake _ _ _ rfl)
  case h_3 => exact leads_next.mpr (htake _ _ _ rfl)
  case h_4 => exact leads_next.mpr h

theorem leads_lockoutAction (h : P s)
    (htake : ∀ e capture after left, interlockEvents left = interlockEvents (s.link c) →
      P (takeLockout c e capture after (s.setLink c left))) : Leads P (exec (.lockoutAction c) s) := by
  show Leads P (execLockoutAction c s)
  unfold execLockoutAction
  split
  · exact leads_next.mpr (htake _ _ _ _ rfl)
  all_goals exact leads_next.mpr h

theorem leads_conditionClearedEvent (h : P s)
    (htake : ∀ after left, interlockEvents left = interlockEvents (s.link c) →
      P (askAgain c after (s.setLink c left))) : Leads P (exec (.conditionClearedEvent c) s) := by
  show Leads P (execConditionClearedEvent c s)
  unfold execConditionClearedEvent
  split
  · exact leads_next.mpr (htake _ _ rfl)
  all_goals exact leads_next.mpr h

theorem leads_arcCleared (h : P s)
    (htake : ∀ after left, interlockEvents left = interlockEvents (s.link c) →
      P (askAgain c after (s.setLink c left))) : Leads P (exec (.arcCleared c) s) := by
  show Leads P (execArcCleared c s)
  unfold execArcCleared
  split
  case h_1 hscanner => exact leads_next.mpr (htake _ _ (by simp only [interlockEvents, hscanner]; rfl))
  all_goals exact leads_next.mpr h

/-- R69: an opened event taken is the first of the interlock events on the link. -/
theorem leads_interlockOpenedEvent (h : P s)
    (htake : ∀ after left, interlockEvents (s.link c) = true :: interlockEvents left →
      P (takeOpened c after (s.setLink c left))) : Leads P (exec (.interlockOpenedEvent c) s) := by
  show Leads P (execInterlockOpenedEvent c s)
  unfold execInterlockOpenedEvent
  split
  case h_1 hscanner => exact leads_next.mpr (htake _ _ (by simp only [interlockEvents, hscanner]; rfl))
  all_goals exact leads_next.mpr h

/-- R70: a closed event taken is the first of the interlock events on the link. -/
theorem leads_interlockClosedEvent (h : P s)
    (htake : ∀ after left, interlockEvents (s.link c) = false :: interlockEvents left →
      P (takeClosed c after (s.setLink c left))) : Leads P (exec (.interlockClosedEvent c) s) := by
  show Leads P (execInterlockClosedEvent c s)
  unfold execInterlockClosedEvent
  split
  case h_1 hscanner => exact leads_next.mpr (htake _ _ (by simp only [interlockEvents, hscanner]; rfl))
  all_goals exact leads_next.mpr h

/-! ## Timers -/

theorem leads_holdoffExpiry (h : P s)
    (hexpire : ∀ finish, (s.chan c).holdoff = some finish → (s.chan c).state = .holdoff →
      P (extendHoldoff c s) ∧ P (endHoldoff c none s)) : Leads P (exec (.holdoffExpiry c) s) := by
  show Leads P (execHoldoffExpiry c s)
  unfold execHoldoffExpiry
  split
  · exact leads_next.mpr h
  · next finish hfinish =>
    refine .ite (fun hheld => ?_) (fun _ => leads_next.mpr h)
    obtain ⟨hextend, hend⟩ := hexpire finish hfinish hheld.2
    exact .ite (fun _ => leads_next.mpr hextend) (fun _ => leads_next.mpr hend)

theorem leads_confirmationExpiry (h : P s) (hexpire : (s.strike c).pending = true → P (expireConfirmation c s)) :
    Leads P (exec (.confirmationExpiry c) s) := by
  show Leads P (execConfirmationExpiry c s)
  unfold execConfirmationExpiry
  split
  · exact leads_next.mpr h
  · exact .ite (fun hpending => leads_next.mpr (hexpire hpending.2)) (fun _ => leads_next.mpr h)

theorem leads_timeCounterTick (h : P s) (htick : P { s with now := s.now + 1 }) (hwrap : P (wrapCounter s)) :
    Leads P (exec .timeCounterTick s) := by
  refine leads_ite_next (fun _ => ?_) h
  unfold tick
  split
  · exact hwrap
  · exact htick

/-! ## The Arbiter and the Drive Resolver -/

theorem leads_grantTaken (h : P s)
    (hqueued : s.arbiter.engine = .granted c → (s.chan c).state = .queued → P (takeGrantQueued c s))
    (hpaused : s.arbiter.engine = .granted c → (s.chan c).state = .paused → P (takeGrantPaused c s))
    (helsewhere : s.arbiter.engine = .granted c → P (offerGrant (s.setArbiter { s.arbiter with engine := .free }))) :
    Leads P (exec (.grantTaken c) s) := by
  by_cases hgranted : s.arbiter.engine = .granted c
  · by_cases hq : (s.chan c).state = .queued
    · rw [exec_grantTaken_of_queued hgranted hq]; exact leads_next.mpr (hqueued hgranted hq)
    · by_cases hp : (s.chan c).state = .paused
      · rw [exec_grantTaken_of_paused hgranted hp]; exact leads_next.mpr (hpaused hgranted hp)
      · rw [exec_grantTaken_of_elsewhere hgranted hq hp]; exact leads_next.mpr (helsewhere hgranted)
  · rw [exec_grantTaken_of_not_granted hgranted]; exact leads_next.mpr h

theorem leads_rampCompletion (h : P s) (hlink : ∀ n, P (s.setLink c { s.link c with completions := n }))
    (hramping : ∀ n, (s.chan c).state = .ramping → P (goOn c (s.setLink c { s.link c with completions := n }))) :
    Leads P (exec (.rampCompletion c) s) := by
  cases hn : (s.link c).completions with
  | zero =>
    show Leads P (execRampCompletion c s)
    simp only [execRampCompletion, hn]
    exact leads_next.mpr h
  | succ n =>
    by_cases hst : (s.chan c).state = .ramping
    · rw [exec_rampCompletion_of_ramping hn hst]; exact leads_next.mpr (hramping n hst)
    · rw [exec_rampCompletion_of_elsewhere hn hst]; exact leads_next.mpr (hlink n)

theorem leads_preemption (h : P s) (hlink : ∀ n, P (s.setLink c { s.link c with preemptions := n }))
    (hramping : ∀ n p, (s.chan c).state = .ramping → (s.chan c).profile = some p → p.group = 1 →
      P (pause c (s.setLink c { s.link c with preemptions := n }))) : Leads P (exec (.preemption c) s) := by
  cases hn : (s.link c).preemptions with
  | zero =>
    show Leads P (execPreemption c s)
    simp only [execPreemption, hn]
    exact leads_next.mpr h
  | succ n =>
    by_cases hlow : (s.chan c).state = .ramping ∧ ∃ p, (s.chan c).profile = some p ∧ p.group = 1
    · obtain ⟨hst, p, hp, hgroup⟩ := hlow
      rw [exec_preemption_of_low hn hst hp hgroup]
      exact leads_next.mpr (hramping n p hst hp hgroup)
    · rw [exec_preemption_of_elsewhere hn]
      · exact leads_next.mpr (hlink n)
      · by_cases hst : (s.chan c).state = .ramping
        · exact .inr fun p hp hgroup => hlow ⟨hst, p, hp, hgroup⟩
        · exact .inl hst

theorem leads_stepReport (h : P s) (hreport : ∀ left sent, left.fromScanner = (s.link c).fromScanner →
      P ((s.setLink c left).setArbiter { s.arbiter with preemptionSent := sent })) :
    Leads P (exec (.stepReport c) s) := by
  cases hn : (s.link c).reports with
  | zero =>
    show Leads P (execStepReport c s)
    simp only [execStepReport, hn]
    exact leads_next.mpr h
  | succ n => rw [exec_stepReport_of_report hn]; exact leads_next.mpr (hreport _ _ rfl)

theorem leads_frameMark (h : P s) (hmark : ∀ n, P (markWork c (s.setLink c { s.link c with marks := n }))) :
    Leads P (exec (.frameMark c) s) := by
  cases hn : (s.link c).marks with
  | zero => rw [exec_frameMark_of_none hn]; exact leads_next.mpr h
  | succ n => rw [exec_frameMark_of hn]; exact leads_next.mpr (hmark n)

theorem leads_positionCount (h : P s)
    (hdrop : ∀ n rest, (s.link c).counts = n :: rest → (s.chan c).profile = none →
      P (s.setLink c { s.link c with counts := rest }))
    (htake : ∀ n rest p, (s.link c).counts = n :: rest → (s.chan c).profile = some p →
      P (changeEntry c { s.resolver c with positions := some (ceilingFor p n) }
        (s.setLink c { s.link c with counts := rest }))) : Leads P (exec (.positionCount c) s) := by
  cases hn : (s.link c).counts with
  | nil => rw [exec_positionCount_of_none hn]; exact leads_next.mpr h
  | cons n rest =>
    cases hp : (s.chan c).profile with
    | none => rw [exec_positionCount_of_noProfile hn hp]; exact leads_next.mpr (hdrop n rest hn hp)
    | some p => rw [exec_positionCount_of_profile hn hp]; exact leads_next.mpr (htake n rest p hn hp)

/-! ## The work of a request -/

theorem setTarget_keeps (h : P s) (hset : ∀ c target, (s.chan c).profile ≠ none →
    P (changeEntry c { s.resolver c with target := some target } s)) : P (setTarget a s).1 := by
  unfold setTarget
  split
  · exact h
  · split_ifs with hrange hprofile
    · exact h
    · exact h
    · exact hset _ _ hprofile

theorem channelOn_keeps (h : P s) (hon : ∀ c target, channelOnRefusal c s = none → P (takeOn c target s)) :
    P (channelOn a s).1 := by
  unfold channelOn
  split
  · exact h
  · split_ifs
    · exact h
    · split
      · exact h
      · next hfree => exact hon _ _ hfree

theorem channelOnRefusal_eq_none (h : channelOnRefusal c s = none) : (s.chan c).profile ≠ none
    ∧ (s.chan c).state = .off ∧ s.scanner.interlockClosed = true := by
  unfold channelOnRefusal at h
  split_ifs at h with hconfigured hprofile hstate hclosed
  exact ⟨hprofile, not_not.mp hstate, by simpa using hclosed⟩

theorem channelOff_keeps (h : P s) (hoff : ∀ c, (s.chan c).state ≠ .off → (s.chan c).state ≠ .lockout →
    P (takeOff c s)) : P (channelOff a s).1 := by
  unfold channelOff
  split
  · exact h
  · next c _ =>
    split
    · exact h
    · exact h
    all_goals next hst => exact hoff c (by rw [hst]; nofun) (by rw [hst]; nofun)

theorem confirmRestrike_keeps (h : P s) (hanswer : ∀ c, (s.strike c).pending = true → ∀ accept : Bool,
    P (if accept then acceptAnswer c s else declineAnswer c s)) : P (confirmRestrike a s).1 := by
  unfold confirmRestrike
  split
  · exact h
  · next c _ =>
    split_ifs with hbad hmatch haccept
    · exact h
    · exact hanswer c hmatch.1 true
    · exact hanswer c hmatch.1 false
    · exact h

theorem releaseLockout_keeps (h : P s) (hrelease : ∀ c, (s.chan c).state = .lockout →
    P (recordChange c none (enterOff c s))) : P (releaseLockout a s).1 := by
  unfold releaseLockout
  split
  · exact h
  · next c _ =>
    split_ifs with hst hbears
    · exact h
    · exact h
    · exact hrelease c (not_not.mp hst)

theorem loadProfile_keeps (h : P s) (hinstall : ∀ c f, (s.chan c).state = .off → checkProfile f = none →
    P (installProfile c f s)) : P (loadProfile a s).1 := by
  unfold loadProfile
  split
  · exact h
  · next c _ =>
    split_ifs with hst
    · exact h
    · dsimp only
      split
      · exact h
      · next hgood => exact hinstall c _ (not_not.mp hst) hgood

end Sys2Proof.Machine


/-! Before READY (R48, R125, R154, R160): the card stays at rest. -/

namespace Sys2Proof.Machine

variable {s t : State} {c : Channel} {p : PositionIx}

/-- What R160 says of a card that is not READY. -/
def AtRest (s : State) : Prop :=
  s.handler.sweep = none ∧ s.evaluator.load = none
  ∧ (∀ c, (s.chan c).state = .off ∧ (s.chan c).mute = true ∧ (s.resolver c).drive = 0 ∧ (s.strike c).pending = false)
  ∧ ∀ p, (s.position p).state ≠ .active ∧ (s.position p).state ≠ .tripped ∧ (s.position p).bias = false

theorem restLaw_iff (s : State) : RestLaw s ↔ (s.phase ≠ .ready → AtRest s) := Iff.rfl

theorem AtRest.sweep (h : AtRest s) : s.handler.sweep = none := h.1
theorem AtRest.load (h : AtRest s) : s.evaluator.load = none := h.2.1
theorem AtRest.position (h : AtRest s) (p : PositionIx) : (s.position p).state ≠ .active
    ∧ (s.position p).state ≠ .tripped ∧ (s.position p).bias = false := h.2.2.2 p
theorem AtRest.channel (h : AtRest s) (c : Channel) : (s.chan c).state = .off ∧ (s.chan c).mute = true
    ∧ (s.resolver c).drive = 0 ∧ (s.strike c).pending = false := h.2.2.1 c
theorem AtRest.off (h : AtRest s) (c : Channel) : (s.chan c).state = .off := (h.channel c).1
theorem AtRest.notPending (h : AtRest s) (c : Channel) : (s.strike c).pending = false := (h.channel c).2.2.2

theorem reads_atRest : Reads AtRest [.handler, .load, .chans, .levels, .strikes, .positions] := fun s t hsame h => by
  have hhandler : t.handler = s.handler := hsame .handler (by simp)
  have hload : t.evaluator.load = s.evaluator.load := hsame .load (by simp)
  have hchans : t.chans = s.chans := hsame .chans (by simp)
  have hstrikes : t.strikes = s.strikes := hsame .strikes (by simp)
  have hpositions : t.positions = s.positions := hsame .positions (by simp)
  refine ⟨by rw [hhandler]; exact h.sweep, by rw [hload]; exact h.load, fun c => ?_, fun p => ?_⟩
  · have hdrive : (t.resolver c).drive = (s.resolver c).drive := by
      have hlevels := hsame .levels (by simp) c
      injection hlevels
    rw [State.chan, hchans, State.strike, hstrikes, hdrive]
    exact h.channel c
  · rw [State.position, hpositions]
    exact h.position p

/-! ## Changes that leave the card at rest -/

theorem AtRest.setResolver {r : DriveResolver} (h : AtRest s) (hdrive : r.drive = 0) : AtRest (s.setResolver c r) := by
  refine ⟨h.sweep, h.load, fun d => ?_, h.position⟩
  obtain ⟨hoff, hmute, hzero, hpending⟩ := h.channel d
  refine ⟨hoff, hmute, ?_, hpending⟩
  rw [State.resolver, State.setResolver_resolvers, look_put]
  split
  · exact hdrive
  · exact hzero

theorem AtRest.setPosition {x : PositionRecord} (h : AtRest s) (hactive : x.state ≠ .active) (htripped : x.state ≠ .tripped)
    (hbias : x.bias = false) : AtRest (s.setPosition p x) := by
  refine ⟨h.sweep, h.load, h.channel, fun q => ?_⟩
  rw [State.position, State.setPosition_positions, look_put]
  split
  · exact ⟨hactive, htripped, hbias⟩
  · exact h.position q

theorem AtRest.wrapCounter (h : AtRest s) : AtRest (wrapCounter s) := by
  have hkept : SameBut [.now, .strikes] s (Machine.wrapCounter s) := by simp
  have hchans : (Machine.wrapCounter s).chans = s.chans := hkept .chans (by simp)
  have hresolvers : (Machine.wrapCounter s).resolvers = s.resolvers := hkept.resolvers (by simp) (by simp)
  have hpositions : (Machine.wrapCounter s).positions = s.positions := hkept .positions (by simp)
  refine ⟨(congrArg RequestHandler.sweep (hkept .handler (by simp))).trans h.sweep, (congrArg id (hkept .load (by simp))).trans h.load,
    fun c => ?_, fun p => by rw [State.position, hpositions]; exact h.position p⟩
  rw [State.chan, hchans, State.resolver, hresolvers, wrapCounter_strike]
  exact h.channel c

theorem AtRest.same (h : AtRest s) {ps : List Part} (hsame : SameBut ps s t)
    (hdisjoint : ∀ p ∈ [Part.handler, .load, .chans, .levels, .strikes, .positions], p ∉ ps) : AtRest t :=
  reads_atRest.keep hsame hdisjoint h

theorem AtRest.setLink (h : AtRest s) (x : ChannelLinks) : AtRest (s.setLink c x) := h

/-! ## Commands that find the card at rest -/

theorem AtRest.offered (h : AtRest s) (kind : Option RequestKind) : offered kind s = none := by
  have hvisiting : visiting s = none := by
    unfold visiting
    rw [h.sweep]
  simp [Machine.offered, hvisiting]

theorem AtRest.visitFor (h : AtRest s) (kind : RequestKind) (work : Arguments → State → State × Reply) :
    visitFor kind work s = s := by simp [Machine.visitFor, h.offered]

theorem AtRest.takeTraffic (h : AtRest s) (item : Traffic) : AtRest (takeTraffic item s) := by
  cases item with
  | write a b => exact h.same (ps := [.mem]) (by simp [Machine.takeTraffic]) (by simp)
  | initArea area => exact h.same (ps := [.mem, .initialized]) (by simp [Machine.takeTraffic]) (by simp)
  | readDrafts upTo =>
    have hnone : readDrafts upTo s = s := by simp only [readDrafts, h.load]
    rw [Machine.takeTraffic, hnone]
    exact h

theorem AtRest.markWork (h : AtRest s) (c : Channel) : AtRest (markWork c s) := by
  obtain ⟨-, hmute, hzero, -⟩ := h.channel c
  rw [markWork_eq c s _ _ _ _ rfl rfl rfl rfl]
  refine AtRest.setLink ?_ _
  have hkept : AtRest (s.setResolver c { markedBy (profileOf s c) (stepDue c s) (s.chan c).state (s.resolver c) with
      drive := if (s.chan c).mute = true then (s.resolver c).drive
        else (markedBy (profileOf s c) (stepDue c s) (s.chan c).state (s.resolver c)).resolved }) :=
    h.setResolver (by rw [if_pos hmute]; exact hzero)
  exact hkept

theorem AtRest.changeEntry (h : AtRest s) {r : DriveResolver} (hr : r.drive = (s.resolver c).drive) :
    AtRest (changeEntry c r s) := by
  obtain ⟨-, hmute, hzero, -⟩ := h.channel c
  by_cases hsame : r = s.resolver c
  · rw [Machine.changeEntry, if_pos hsame]; exact h
  · rw [changeEntry_eq_set hsame]
    have hkept : AtRest (s.setResolver c { r with
        drive := if (s.chan c).mute = false then min r.drive r.resolved else r.drive }) :=
      h.setResolver (by rw [if_neg (by simp [hmute])]; exact hr.trans hzero)
    exact hkept

theorem AtRest.askAgain (h : AtRest s) (c : Channel) (after : Option Stamp) : askAgain c after s = s :=
  askAgain_of_not after (by rintro ⟨hst, -⟩; rw [h.off c] at hst; cases hst)

theorem AtRest.takeClosed (h : AtRest s) (c : Channel) (after : Option Stamp) : takeClosed c after s = s :=
  takeClosed_of_not after (by rw [h.off c]; nofun)

theorem identifiedState_ne_tripped (profile : Option Profile) (code : Byte) :
    identifiedState profile code ≠ .tripped := by
  cases profile with
  | none => nofun
  | some f => rw [identifiedState_some]; split <;> nofun

theorem AtRest.endRead (h : AtRest s) (p : PositionIx) (code : Byte) : AtRest (endRead p code s) := by
  have hactive := identifiedState_ne_active (s.chan (channelOf p)).profile code
  have hkept := h.setPosition (p := p) (x := { s.position p with
    state := identifiedState (s.chan (channelOf p)).profile code, identity := code, bias := false, read := none })
    hactive (identifiedState_ne_tripped _ _) rfl
  rw [endRead_eq p code s _ rfl hactive]
  exact hkept

theorem AtRest.startRead (h : AtRest s) (p : PositionIx) : AtRest (startRead p s) := by
  obtain ⟨hactive, htripped, hbias⟩ := h.position p
  have hread : AtRest (s.setPosition p { s.position p with
      identity := 0xFF, presenceTimer := none, read := some (later s.now Config.identityReadMs) }) :=
    h.setPosition hactive htripped hbias
  have hout : PositionState.identifying ≠ .active ∧ PositionState.identifying ≠ .tripped := by decide
  exact hread.setPosition hout.1 hout.2 rfl

theorem AtRest.takePresence (h : AtRest s) (p : PositionIx) (active : Bool) : AtRest (takePresence p active s) := by
  obtain ⟨hactive, htripped, hbias⟩ := h.position p
  by_cases hst : (s.position p).state = .empty
  · rw [takePresence_of_empty active hst]
    exact h.setPosition hactive htripped hbias
  · cases active with
    | true =>
      rw [takePresence_of_seated hst]
      exact h.setPosition hactive htripped hbias
    | false =>
      rw [takePresence_of_lost hst, loseModule_eq]
      have hkept := h.setPosition (p := p) (x := { s.position p with
        state := .empty, identity := 0xFF, bias := false, presence := false, read := none }) nofun nofun rfl
      exact hkept

theorem AtRest.takeTrip (h : AtRest s) (p : PositionIx) (e : EntryIx) (after : Option Stamp) :
    AtRest (takeTrip p e after s) := by
  rw [takeTrip_of_out e after (h.position p).1]
  exact h.same (ps := [.journal]) (by simp) (by simp)

/-- R160: before READY, a command that neither resets the card nor ends initialization leaves it at rest. -/
theorem exec_leads_atRest (cmd : Instr) (hreset : isReset cmd = false) (hinit : cmd ≠ .initializationEnd)
    (hphase : s.phase ≠ .ready) (h : AtRest s) : Leads AtRest (exec cmd s) := by
  cases cmd with
  | powerOnReset _ _ | controllerReset _ _ | backplaneResetRelease _ | supplyLoss => cases hreset
  | initializationEnd => exact absurd rfl hinit
  | attn value =>
    show Leads AtRest (execAttn value s)
    unfold execAttn
    split
    · exact absurd ‹_› hphase
    · exact absurd ‹_› hphase
    all_goals exact leads_next.mpr h
  | sweepEnd =>
    show Leads AtRest (execSweepEnd s)
    simp only [execSweepEnd, h.sweep]
    exact leads_next.mpr h
  | slotVisit =>
    have hvisiting : visiting s = none := by rw [visiting, h.sweep]
    show Leads AtRest (execSlotVisit s)
    simp only [execSlotVisit, hvisiting]
    exact leads_next.mpr h
  | slotStateWrite before slot value =>
    refine .ite (fun _ => leads_next.mpr h) (fun _ => leads_next.mpr ?_)
    have hkept : AtRest (forEach before takeTraffic s) :=
      forEach_keeps AtRest takeTraffic before s (fun item _ _ hu => hu.takeTraffic item) h
    exact hkept.same (ps := [.mem]) (by simp) (by simp)
  | badKind =>
    show Leads AtRest (execBadKind s)
    simp only [execBadKind, h.offered]
    exact leads_next.mpr h
  | loadConditions =>
    show Leads AtRest (execLoadConditions s)
    simp only [execLoadConditions, h.offered]
    exact leads_next.mpr h
  | loadEnd order =>
    show Leads AtRest (execLoadEnd order s)
    simp only [execLoadEnd, h.load]
    exact leads_next.mpr h
  | loadProfile | channelOn | channelOff | setTarget | confirmRestrike | releaseLockout | clearCondition
    | enablePosition | disablePosition | holdCapture | releaseCapture =>
    exact leads_next.mpr ((h.visitFor _ _).symm ▸ h)
  | grantTaken c =>
    refine leads_grantTaken h (fun _ hq => ?_) (fun _ hp => ?_)
      (fun _ => h.same (ps := [.arbiter]) (by simp) (by simp))
    · rw [h.off c] at hq; cases hq
    · rw [h.off c] at hp; cases hp
  | rampCompletion c =>
    exact leads_rampCompletion h (fun _ => h.setLink _) (fun _ hst => by rw [h.off c] at hst; cases hst)
  | preemption c =>
    exact leads_preemption h (fun _ => h.setLink _) (fun _ _ hst => by rw [h.off c] at hst; cases hst)
  | strike c link =>
    exact leads_strike h fun cause after left _ =>
      (takeStrike_of_out (s := s.setLink c left) cause after (.inl (h.off c))).symm ▸ h.setLink left
  | lockoutAction c =>
    exact leads_lockoutAction h fun e capture after left _ =>
      (takeLockout_of_out (s := s.setLink c left) e capture after (.inl (h.off c))).symm ▸ h.setLink left
  | interlockOpenedEvent c =>
    exact leads_interlockOpenedEvent h fun after left _ =>
      (takeOpened_of_out (s := s.setLink c left) after (.inl (h.off c))).symm ▸ h.setLink left
  | interlockClosedEvent c =>
    exact leads_interlockClosedEvent h fun after left _ => ((h.setLink left).takeClosed c after).symm ▸ h.setLink left
  | conditionClearedEvent c =>
    exact leads_conditionClearedEvent h fun after left _ => ((h.setLink left).askAgain c after).symm ▸ h.setLink left
  | arcCleared c =>
    exact leads_arcCleared h fun after left _ => ((h.setLink left).askAgain c after).symm ▸ h.setLink left
  | holdoffExpiry c => exact leads_holdoffExpiry h fun _ _ hst => by rw [h.off c] at hst; cases hst
  | confirmationExpiry c =>
    exact leads_confirmationExpiry h fun hpending => by rw [h.notPending c] at hpending; cases hpending
  | timeCounterWrap => exact leads_ite_next (fun _ => h.wrapCounter) h
  | timeCounterTick => exact leads_timeCounterTick h h h.wrapCounter
  | frameMark c => exact leads_frameMark h fun _ => (h.setLink _).markWork c
  | positionCount c =>
    exact leads_positionCount h (fun _ _ _ _ => h.setLink _) (fun _ _ _ _ _ => (h.setLink _).changeEntry rfl)
  | presenceChange p active spell => exact leads_ite_next (fun _ => h.takePresence p active) h
  | presenceTimerEnd p =>
    show Leads AtRest (execPresenceTimerEnd p s)
    unfold execPresenceTimerEnd
    split
    · exact leads_next.mpr h
    · exact leads_ite_next (fun _ => h.startRead p) h
  | identityReadEnd p code =>
    show Leads AtRest (execIdentityReadEnd p code s)
    unfold execIdentityReadEnd
    split
    · exact leads_next.mpr h
    · exact leads_ite_next (fun _ => h.endRead p _) h
  | positionTrip p e =>
    show Leads AtRest (execPositionTrip p e s)
    unfold execPositionTrip
    split
    · exact leads_next.mpr h
    · exact leads_next.mpr ((h.same (ps := [.trips]) (by simp) (by simp)).takeTrip p e _)
  | _ => exact fun t ht => reads_atRest.keep_exec ht (by simp [footprint]) h

/-! ## Steps -/

theorem restLaw_leaveReset (powerOn : Bool) (pins : Pins) (s : State) : RestLaw (leaveReset powerOn pins s) :=
  restLaw_of_reset (fun p => ⟨look pins.presence p, look_ofFn _ p⟩) rfl rfl rfl rfl rfl

theorem restLaw_blocksReset (phase : Phase) (mem : Memory) (pending : List Instr) :
    RestLaw { State.reset with phase := phase, mem := mem, pending := pending } :=
  restLaw_of_reset (fun p => ⟨false, look_replicate _ p⟩) rfl rfl rfl rfl rfl

/-- The phase moves at a reset, at the loss of supply and at the end of initialization only. -/
theorem exec_phase {cmd : Instr} (hreset : isReset cmd = false) (hinit : cmd ≠ .initializationEnd)
    (ht : exec cmd s = .next t) : t.phase = s.phase := by
  rcases exec_keepsPhase_or cmd s with hkeep | ⟨b, q, rfl⟩ | ⟨x, q, rfl⟩ | ⟨q, rfl⟩ | rfl | rfl
  · rwa [ht] at hkeep
  · cases hreset
  · cases hreset
  · cases hreset
  · exact absurd rfl hinit
  · cases hreset

/-- R48, R125, R154, R160: every command keeps the card at rest until READY. -/
theorem exec_leads_restLaw (cmd : Instr) (h : RestLaw s) : Leads RestLaw (exec cmd s) := by
  by_cases hreset : isReset cmd = true
  · exact leads_of_isReset hreset (fun _ => restLaw_blocksReset _ _ _) (fun _ _ => restLaw_leaveReset _ _ _)
      (restLaw_blocksReset _ _ _) h
  · by_cases hinit : cmd = .initializationEnd
    · subst hinit
      rw [exec_initializationEnd_eq]
      exact leads_ite_next (fun hstarted hphase => absurd (by rw [(numberHeldRecords_done hstarted).frame]) hphase) h
    · intro t ht hphase
      have hsame : t.phase = s.phase := exec_phase (by simpa using hreset) hinit ht
      have hphase : s.phase ≠ .ready := hsame ▸ hphase
      exact exec_leads_atRest cmd (by simpa using hreset) hinit hphase (h hphase) t ht

/-- Settles O60: a step is a command, its queue of commands apart. -/
theorem stepKeepsCardAtRestBeforeReady : Obligations.StepKeepsCardAtRestBeforeReady := by
  intro s t h ht
  unfold step at ht
  split at ht
  · cases ht; exact h
  · next cmd rest _ => exact exec_leads_restLaw (s := { s with pending := rest }) cmd h t ht

end Sys2Proof.Machine


/-! The laws of the conditions (R19, R25 to R28, R41, R42, R44, R32): kept by every step. -/

namespace Sys2Proof.Machine

variable {s t u : State} {c : Channel} {i : EntryIx} {e e' : LiveEntry} {claim : Claim} {p : Point} {a : Arguments}
  {f : ConditionFields} {set : List EntryIx}

/-! ## The active set after a run of deliveries (R116) -/

/-- Whether an entry is in the active set after its delivery, if it has one. -/
def inSetAfter (d : Option FoldbackDelivery) (before : Prop) : Prop :=
  match d with
  | none => before
  | some (.join _) => True
  | some (.leave _) => False

theorem mem_apply_join (i j : EntryIx) : i ∈ FoldbackDelivery.apply set (.join j) ↔ i = j ∨ i ∈ set := by
  show i ∈ (if set.contains j then set else set ++ [j]) ↔ _
  by_cases h : j ∈ set
  · rw [if_pos (by simpa using h)]
    exact ⟨.inr, fun k => k.elim (fun hij => hij ▸ h) id⟩
  · rw [if_neg (by simpa using h)]
    simp [or_comm]

theorem mem_apply_leave (i j : EntryIx) : i ∈ FoldbackDelivery.apply set (.leave j) ↔ i ∈ set ∧ i ≠ j := by
  simp [FoldbackDelivery.apply]

/-- Deliveries about other entries leave an entry in the set or out of it. -/
theorem mem_foldl_apply_of_others {ds : List FoldbackDelivery} (h : ∀ d ∈ ds, d ≠ .join i ∧ d ≠ .leave i) :
    i ∈ ds.foldl FoldbackDelivery.apply set ↔ i ∈ set := by
  induction ds generalizing set with
  | nil => rfl
  | cons d ds ih =>
    obtain ⟨hd, hds⟩ := List.forall_mem_cons.mp h
    rw [List.foldl_cons, ih hds]
    cases d with
    | join j => rw [mem_apply_join]; exact or_iff_right fun k => hd.1 (by rw [k])
    | leave j => rw [mem_apply_leave]; exact and_iff_left fun k => hd.2 (by rw [k])

/-- What a claim delivers to a Drive Resolver is about its entry. -/
theorem claimFoldback_eq_some {d : FoldbackDelivery} (h : claimFoldback claim i f c = some d) :
    d = .join i ∨ d = .leave i := by
  unfold claimFoldback at h
  split at h
  · cases claim <;> simp_all
  · cases h

/-- R32: a run of claims, each about another entry, on the active set. -/
theorem mem_foldl_apply_claims {g : EntryIx → Option FoldbackDelivery}
    (hg : ∀ j d, g j = some d → d = .join j ∨ d = .leave j) : ∀ {l : List EntryIx} {set : List EntryIx}, l.Nodup →
    (i ∈ (l.filterMap g).foldl FoldbackDelivery.apply set ↔ inSetAfter (if i ∈ l then g i else none) (i ∈ set))
  | [], _, _ => by simp [inSetAfter]
  | j :: l, set, hl => by
    obtain ⟨hj, hl⟩ := List.nodup_cons.mp hl
    rw [filterMap_cons_toList, List.foldl_append, mem_foldl_apply_claims hg hl]
    by_cases hij : i = j
    · subst hij
      rw [if_neg hj, if_pos (by simp)]
      cases hd : g i with
      | none => rfl
      | some d =>
        rcases hg i d hd with rfl | rfl
        · simp [inSetAfter, mem_apply_join]
        · simp [inSetAfter, mem_apply_leave]
    · have hothers : i ∈ (g j).toList.foldl FoldbackDelivery.apply set ↔ i ∈ set :=
        mem_foldl_apply_of_others fun d hd => by
          rcases hg j d (by simpa using hd) with rfl | rfl <;> simp [Ne.symm hij]
      simp only [List.mem_cons, hij, false_or, propext hothers]

/-- R32: claims that bring every entry to its bearing keep the law. -/
theorem FoldbackLaw.of_claims {l : List EntryIx} {claims : EntryIx → Claim} (h : FoldbackLaw s) (hl : l.Nodup)
    (hlink : ∀ c, (t.link c).foldback = (s.link c).foldback
      ++ l.filterMap (fun i => claimFoldback (claims i) i (s.entry i).fields c))
    (hsets : ∀ c, (t.resolver c).activeSet = (s.resolver c).activeSet)
    (hbears : ∀ c i, bearsOn .foldback c (t.entry i) = true ↔
      inSetAfter (if i ∈ l then claimFoldback (claims i) i (s.entry i).fields c else none)
        (bearsOn .foldback c (s.entry i) = true)) : FoldbackLaw t := fun c i => by
  rw [hlink c, hsets c, List.foldl_append, mem_foldl_apply_claims (fun _ _ => claimFoldback_eq_some) hl, hbears c i]
  unfold inSetAfter
  split
  · exact h c i
  · exact Iff.rfl
  · exact Iff.rfl

/-- A move of an entry, by its claim. -/
theorem Moved.bearsOn (h : Moved e e' claim) (c : Channel) (i : EntryIx) : bearsOn .foldback c e' = true ↔
    inSetAfter (claimFoldback claim i e.fields c) (bearsOn .foldback c e = true) := by
  have hasserted := h.asserted
  have hwithdrawn := h.withdrawn
  unfold claimFoldback Machine.bearsOn
  rw [h.fields]
  by_cases hfields : actionOf e.fields.action = some .foldback ∧ e.fields.scope.testBit c.val = true
  · rw [if_pos hfields]
    cases claim with
    | unchanged =>
      have hforce : e'.inForce = e.inForce := by
        have hup : ¬(e.inForce = false ∧ e'.inForce = true) := fun k => nomatch hasserted.mpr k
        have hdown : ¬(e.inForce = true ∧ e'.inForce = false) := fun k => nomatch hwithdrawn.mpr k
        cases he : e.inForce <;> cases he' : e'.inForce <;> simp_all
      rw [hforce]
      rfl
    | asserted => simp [inSetAfter, hfields, (hasserted.mp rfl).2]
    | withdrawn => simp [inSetAfter, (hwithdrawn.mp rfl).2]
  · rw [if_neg hfields]
    simp only [inSetAfter, Bool.and_eq_true, beq_iff_eq]
    constructor
    · rintro ⟨⟨-, haction⟩, hscope⟩; exact absurd ⟨haction, hscope⟩ hfields
    · rintro ⟨⟨-, haction⟩, hscope⟩; exact absurd ⟨haction, hscope⟩ hfields

theorem inSetAfter_unchanged (i : EntryIx) (f : ConditionFields) (c : Channel) (q : Prop) :
    inSetAfter (claimFoldback .unchanged i f c) q ↔ q := by
  unfold claimFoldback
  split <;> exact Iff.rfl

/-! ## Arrivals -/

theorem arrivalMove_moved (h : EntryLaw e) (sc : Scanner) (p : Point) :
    Moved e (arrivalMove sc p e).1 (arrivalMove sc p e).2 := by
  unfold arrivalMove
  split
  · exact moved_take h _
  · exact moved_unchanged rfl h rfl

/-- The law of the conditions, and R32's law of the active sets beside it. -/
def ConditionLaws (s : State) : Prop := EntryLaws s ∧ FoldbackLaw s

theorem entryLaws_evaluate (p : Point) (order : List EntryIx) (h : EntryLaws s) : EntryLaws (evaluate p order s) := by
  obtain ⟨hevaluator, hentry, -⟩ := evaluate_evaluated p order s
  refine ⟨fun i => ?_, by rw [hevaluator]; exact h.2⟩
  rw [hentry i, if_pos (mem_inOrder order i)]
  exact (arrivalMove_moved (h.1 i) s.scanner p).law

theorem foldbackLaw_evaluate (p : Point) (order : List EntryIx) (hentries : EntryLaws s) (h : FoldbackLaw s) :
    FoldbackLaw (evaluate p order s) := by
  obtain ⟨-, hentry, -, -, hlink⟩ := evaluate_evaluated p order s
  refine h.of_claims ((inOrder_nodup order).filter _) (fun c => by rw [hlink c])
    (evaluate_sameBut p order s .activeSets (by simp)) (fun c i => ?_)
  have hmoved := (arrivalMove_moved (hentries.1 i) s.scanner p).bearsOn c i
  rw [hentry i, if_pos (mem_inOrder order i), hmoved]
  by_cases hclaim : (arrivalMove s.scanner p (s.entry i)).2 = .unchanged
  · rw [if_neg (by simp [hclaim]), hclaim, inSetAfter_unchanged]
    rfl
  · rw [if_pos (by simp [hclaim, mem_inOrder])]

/-! ## CLEAR_CONDITION -/

theorem clearCondition_cases (a : Arguments) (s : State) : (clearCondition a s).1 = s
    ∨ ∃ i, (s.entry i).state = .active ∧ (s.entry i).clearSeen = true ∧ (s.entry i).fields.latch = 1
      ∧ (clearCondition a s).1
        = withdrawAction none i (s.entry i).fields none false (s.setEntry i ((s.entry i).at .normal 0)) := by
  by_cases hbad : 96 ≤ a.word1
  · exact .inl (by rw [clearCondition_of_badArgument hbad])
  · have hi : a.word1 = (⟨a.word1, by omega⟩ : EntryIx).val := rfl
    generalize (⟨a.word1, by omega⟩ : EntryIx) = i at hi
    by_cases hst : (s.entry i).state = .active
    · by_cases hmarked : (s.entry i).clearSeen = true ∧ (s.entry i).fields.latch = 1
      · exact .inr ⟨i, hst, hmarked.1, hmarked.2, by rw [clearCondition_of_marked hi hst hmarked.1 hmarked.2]⟩
      · exact .inl (by rw [clearCondition_of_unmarked hi hst hmarked])
    · exact .inl (by rw [clearCondition_of_inactive hi hst])

/-- R36: the cleared entry is withdrawn. -/
theorem moved_cleared (h : EntryLaw e) (hst : e.state = .active) : Moved e (e.at .normal 0) .withdrawn :=
  moved_withdrawn rfl (h.at (by rw [hst]; nofun) nofun (fun _ _ => rfl) nofun nofun)
    (by simp [LiveEntry.inForce, hst]) rfl

theorem entryLaws_clearCondition (h : EntryLaws s) : EntryLaws (clearCondition a s).1 := by
  rcases clearCondition_cases a s with hsame | ⟨i, hst, -, -, hcleared⟩
  · rw [hsame]; exact h
  · obtain ⟨-, hentry, hothers⟩ := clearedEntry_spec i s
    have hevaluator : (clearCondition a s).1.evaluator.settings = s.evaluator.settings := by
      rw [hcleared, withdrawAction_frame]; rfl
    rw [← hcleared] at hentry hothers
    refine ⟨fun j => ?_, by rw [hevaluator]; exact h.2⟩
    by_cases hj : j = i
    · rw [hj, hentry]; exact (moved_cleared (h.1 i) hst).law
    · rw [hothers j hj]; exact h.1 j

theorem foldbackLaw_clearCondition (hentries : EntryLaws s) (h : FoldbackLaw s) :
    FoldbackLaw (clearCondition a s).1 := by
  rcases clearCondition_cases a s with hsame | ⟨i, hst, -, -, hcleared⟩
  · rw [hsame]; exact h
  · obtain ⟨-, hentry, hothers⟩ := clearedEntry_spec i s
    obtain ⟨hframe, -, -, hlink⟩ := withdrawAction_sent none i (s.entry i).fields none false
      (s.setEntry i ((s.entry i).at .normal 0))
    rw [← hcleared] at hentry hothers hframe hlink
    refine h.of_claims (l := [i]) (claims := fun _ => .withdrawn) (by simp) (fun c => ?_) (fun c => ?_) (fun c j => ?_)
    · rw [hlink c, filterMap_cons_toList]; simp
    · rw [hframe]; rfl
    · by_cases hj : j = i
      · rw [hj, hentry, if_pos (by simp)]
        exact (moved_cleared (hentries.1 i) hst).bearsOn c i
      · rw [hothers j hj, if_neg (by simpa using hj)]
        rfl

/-! ## The end of a load -/

theorem entryLaw_switched (h : checkCondition f = none) : EntryLaw (entrySwitched f) := by
  by_cases henable : f.enable = 1
  · constructor <;> simp [entrySwitched, henable, h]
  · constructor <;> simp [entrySwitched, henable, h]

theorem entrySwitched_inForce (f : ConditionFields) : (entrySwitched f).inForce = false := by
  by_cases henable : f.enable = 1 <;> simp [entrySwitched, henable, LiveEntry.inForce]

theorem entryLaws_switchTables (d : EntryIx → ConditionFields) {settings : SiteSettings} (order : List ArcLine)
    (h : EntryLaws s) (hd : ∀ i, checkCondition (d i) = none) (hsettings : checkSettings settings = none) :
    EntryLaws (switchTables ((List.finRange 96).map d) settings order s) := by
  obtain ⟨-, hevaluator, hentry, -, -⟩ := switchTables_switched d settings order s
  refine ⟨fun i => ?_, by rw [hevaluator]; exact hsettings⟩
  rw [hentry i]
  split
  · exact h.1 i
  · exact entryLaw_switched (hd i)

theorem foldbackLaw_switchTables (d : EntryIx → ConditionFields) (settings : SiteSettings) (order : List ArcLine)
    (h : FoldbackLaw s) : FoldbackLaw (switchTables ((List.finRange 96).map d) settings order s) := by
  obtain ⟨hframe, -, hentry, -, hlink⟩ := switchTables_switched d settings order s
  refine h.of_claims (claims := fun _ => .withdrawn) ((List.nodup_finRange 96).filter _) (fun c => by rw [hlink c])
    (fun c => by rw [hframe]; rfl) (fun c i => ?_)
  rw [hentry i]
  by_cases hsame : d i = (s.entry i).fields
  · rw [if_pos hsame, if_neg (by simp [hsame])]
    rfl
  · rw [if_neg hsame]
    have hout : bearsOn .foldback c (entrySwitched (d i)) = false := by simp [bearsOn, entrySwitched_inForce]
    cases hforce : (s.entry i).inForce with
    | false =>
      rw [if_neg (by simp [hforce]), hout]
      simp [inSetAfter, bearsOn, hforce]
    | true =>
      rw [if_pos (by simp [hforce, hsame]), hout, claimFoldback_withdrawn]
      split
      · simp [inSetAfter]
      · next hfields => simp only [inSetAfter, bearsOn, hforce, Bool.true_and, Bool.and_eq_true, beq_iff_eq]; simp [hfields]

/-- The drafts of a load beyond the table are not read at the switch. -/
theorem zip_finRange_of_le (drafts : List ConditionFields) (h : 96 ≤ drafts.length) : (List.finRange 96).zip drafts
    = (List.finRange 96).zip ((List.finRange 96).map (fun i => drafts.getD i.val ConditionFields.blank)) := by
  refine List.ext_getElem (by simp [h]) fun k hk hk' => ?_
  have hlt : k < 96 := by simp at hk'; omega
  simp [List.getD_eq_getElem?_getD, List.getElem?_eq_getElem (show k < drafts.length by omega)]

theorem switchTables_of_le {drafts : List ConditionFields} (h : 96 ≤ drafts.length) (settings : SiteSettings)
    (order : List ArcLine) (s : State) : switchTables drafts settings order s
      = switchTables ((List.finRange 96).map (fun i => drafts.getD i.val ConditionFields.blank)) settings order s := by
  simp only [switchTables, zip_finRange_of_le drafts h]

/-- R43: a table that passes its checks passes entry by entry. -/
theorem firstBadPlace_eq_none {drafts : List ConditionFields} {settings : SiteSettings}
    (h : firstBadPlace drafts settings = none) :
    (∀ f, f ∈ drafts → checkCondition f = none) ∧ checkSettings settings = none := by
  have hspec := firstBadPlace_spec drafts settings
  rw [h] at hspec
  exact hspec

theorem length_readTo_all (l : Load) (m : Memory) : 96 ≤ (l.readTo m 97).drafts.length := by
  simp [Load.readTo]
  omega

/-- A load that ends leaves the tables as they are, or switches them to drafts that passed their checks. -/
theorem endLoad_cases (l : Load) (h : 96 ≤ l.drafts.length) (order : List ArcLine) (s : State) :
    (endLoad l order s).1 = s.setEvaluator { s.evaluator with load := none }
    ∨ ∃ d settings, (∀ i, checkCondition (d i) = none) ∧ checkSettings settings = none
      ∧ (endLoad l order s).1 = switchTables ((List.finRange 96).map d) settings order
          (s.setEvaluator { s.evaluator with load := none }) := by
  cases hplace : firstBadPlace l.drafts (l.settings.getD SiteSettings.blank) with
  | some place => exact .inl (by simp only [endLoad, hplace])
  | none =>
    obtain ⟨hdrafts, hsettings⟩ := firstBadPlace_eq_none hplace
    refine .inr ⟨fun i => l.drafts.getD i.val ConditionFields.blank, _, fun i => hdrafts _ ?_, hsettings, ?_⟩
    · have hi : i.val < l.drafts.length := by omega
      simp only [List.getD_eq_getElem?_getD, List.getElem?_eq_getElem hi, Option.getD_some]
      exact List.getElem_mem hi
    · simp only [endLoad, hplace]
      exact switchTables_of_le h _ _ _

theorem entryLaws_endLoad (l : Load) (h96 : 96 ≤ l.drafts.length) (order : List ArcLine) (h : EntryLaws s) :
    EntryLaws (endLoad l order s).1 := by
  have hended : EntryLaws (s.setEvaluator { s.evaluator with load := none }) := h
  rcases endLoad_cases l h96 order s with hsame | ⟨d, settings, hd, hsettings, hswitched⟩
  · rw [hsame]; exact hended
  · rw [hswitched]; exact entryLaws_switchTables d order hended hd hsettings

theorem foldbackLaw_endLoad (l : Load) (h96 : 96 ≤ l.drafts.length) (order : List ArcLine) (h : FoldbackLaw s) :
    FoldbackLaw (endLoad l order s).1 := by
  have hended : FoldbackLaw (s.setEvaluator { s.evaluator with load := none }) := h
  rcases endLoad_cases l h96 order s with hsame | ⟨d, settings, -, -, hswitched⟩
  · rw [hsame]; exact hended
  · rw [hswitched]; exact foldbackLaw_switchTables d settings order hended

/-! ## Deliveries taken (R116) -/

/-- A delivery taken from the head of the link is in the active set, or out of it, as it was to be. -/
theorem FoldbackLaw.taken {d : FoldbackDelivery} {rest : List FoldbackDelivery} (h : FoldbackLaw s)
    (hhead : (s.link c).foldback = d :: rest) :
    FoldbackLaw ((s.setLink c { s.link c with foldback := rest }).setResolver c
      { s.resolver c with activeSet := FoldbackDelivery.apply (s.resolver c).activeSet d }) := fun x i => by
  have hx := h x i
  by_cases hxc : x = c
  · subst hxc
    rw [hhead, List.foldl_cons] at hx
    simpa using hx
  · simpa [hxc] using hx

/-! ## Commands -/

theorem reads_conditionLaws : Reads ConditionLaws [.entries, .settings, .foldback, .activeSets] := fun s t hsame h =>
  ⟨reads_entryLaws s t (fun p hp => hsame p (by simp at hp ⊢; tauto)) h.1,
    reads_foldbackLaw s t (fun p hp => hsame p (by simp at hp ⊢; tauto)) h.2⟩

theorem exec_leads_entryLaws (cmd : Instr) (hvisit : cmd ≠ .slotVisit) (h : EntryLaws s) :
    Leads EntryLaws (exec cmd s) := by
  cases cmd with
  | powerOnReset _ _ | controllerReset _ _ | backplaneResetRelease _ | supplyLoss =>
    exact reads_entryLaws.leads_of_isReset entryLaws_reset (by simp [Part.Same]) rfl h
  | slotVisit => exact absurd rfl hvisit
  | clearCondition =>
    exact leads_next.mpr (reads_entryLaws.keep_visitFor (by simp) _ (fun _ _ => entryLaws_clearCondition) h)
  | loadEnd order =>
    show Leads EntryLaws (execLoadEnd order s)
    unfold execLoadEnd
    split
    · exact leads_next.mpr h
    · next l _ =>
      exact leads_next.mpr (reads_entryLaws.keep (ps := [.mem, .handler]) (by simp) (by simp)
        (entryLaws_endLoad _ (length_readTo_all l s.mem) order h))
  | sampleArrival p input order =>
    refine leads_ite_next (fun _ => ?_) h
    have htaken : EntryLaws (takeCount p (saturate input) s) :=
      reads_entryLaws.keep (ps := [.scanner]) (by simp) (by simp) h
    exact reads_entryLaws.keep (ps := [.scanner, .mem, .captures]) (by simp) (by simp) (entryLaws_evaluate p order htaken)
  | _ => exact fun t ht => reads_entryLaws.keep_exec ht (by simp [footprint]) h

theorem exec_leads_conditionLaws (cmd : Instr) (hvisit : cmd ≠ .slotVisit) (h : ConditionLaws s) :
    Leads ConditionLaws (exec cmd s) := by
  cases cmd with
  | powerOnReset _ _ | controllerReset _ _ | backplaneResetRelease _ | supplyLoss =>
    exact reads_conditionLaws.leads_of_isReset ⟨entryLaws_reset, foldbackLaw_reset⟩
      (by simp [Part.Same, State.link, State.resolver]) rfl h
  | slotVisit => exact absurd rfl hvisit
  | clearCondition =>
    exact leads_next.mpr (reads_conditionLaws.keep_visitFor (by simp) _
      (fun _ _ hu => ⟨entryLaws_clearCondition hu.1, foldbackLaw_clearCondition hu.1 hu.2⟩) h)
  | loadEnd order =>
    show Leads ConditionLaws (execLoadEnd order s)
    unfold execLoadEnd
    split
    · exact leads_next.mpr h
    · next l _ =>
      have h96 := length_readTo_all l s.mem
      exact leads_next.mpr (reads_conditionLaws.keep (ps := [.mem, .handler]) (by simp) (by simp)
        ⟨entryLaws_endLoad _ h96 order h.1, foldbackLaw_endLoad _ h96 order h.2⟩)
  | sampleArrival p input order =>
    refine leads_ite_next (fun _ => ?_) h
    obtain ⟨hentries, hfoldback⟩ : ConditionLaws (takeCount p (saturate input) s) :=
      reads_conditionLaws.keep (ps := [.scanner]) (by simp) (by simp) h
    exact reads_conditionLaws.keep (ps := [.scanner, .mem, .captures]) (by simp) (by simp)
      ⟨entryLaws_evaluate p order hentries, foldbackLaw_evaluate p order hentries hfoldback⟩
  | foldbackJoin c =>
    show Leads ConditionLaws (execFoldbackJoin c s)
    unfold execFoldbackJoin
    split
    · next hhead => exact leads_next.mpr ⟨h.1, h.2.taken hhead⟩
    all_goals exact leads_next.mpr h
  | foldbackLeave c =>
    show Leads ConditionLaws (execFoldbackLeave c s)
    unfold execFoldbackLeave
    split
    · next hhead => exact leads_next.mpr ⟨h.1, h.2.taken hhead⟩
    all_goals exact leads_next.mpr h
  | _ => exact fun t ht => reads_conditionLaws.keep_exec ht (by simp [footprint]) h

/-- Settles O59: the law of the entries stands alone, and with it the law of the active sets. -/
theorem stepKeepsConditionLaws : Obligations.StepKeepsConditionLaws := fun s t hentries ht =>
  ⟨reads_entryLaws.keep_step (by simp) (fun cmd _ t hcmd hs => exec_leads_entryLaws cmd hcmd hs t) s t hentries ht,
    fun hfoldback => (reads_conditionLaws.keep_step (by simp)
      (fun cmd _ t hcmd hs => exec_leads_conditionLaws cmd hcmd hs t) s t ⟨hentries, hfoldback⟩ ht).2⟩

end Sys2Proof.Machine


/-! The laws of the positions and their counts (R115, R126, R128, R130): kept by every step. -/

namespace Sys2Proof.Machine

variable {s t : State} {c d : Channel} {p q : PositionIx} {x : PositionRecord} {profile : Option Profile} {k : Fin 6}
  {st : PositionState} {a : Arguments} {f : Profile}

/-! ## The law of one record -/

/-- The law of a position, read off its record, its channel's profile and its slot. -/
structure RecordLaw (profile : Option Profile) (slot : Nat) (x : PositionRecord) : Prop where
  biased : x.bias = (x.state == .active)
  inService : x.state = .active →
    x.presence = true ∧ ∃ f, profile = some f ∧ x.identity.toNat = f.identity ∧ f.installed.testBit slot = true
  fit : x.state = .disabled ∨ x.state = .tripped → ∀ f, profile = some f → x.identity.toNat = f.identity
  seated : x.state ≠ .empty → x.presence = true
  qualifying : x.presenceTimer.isSome = true → x.state = .empty ∧ x.presence = true
  reading : x.read.isSome = true ↔ x.state = .identifying

theorem positionLaw_iff (s : State) (p : PositionIx) :
    PositionLaw s p ↔ RecordLaw (s.chan (channelOf p)).profile (p.val % 6) (s.position p) :=
  ⟨fun h => ⟨h.biased, h.inService, h.fit, h.seated, h.qualifying, h.reading⟩,
    fun h => ⟨h.biased, h.inService, h.fit, h.seated, h.qualifying, h.reading⟩⟩

section
variable {slot : Nat}

theorem RecordLaw.timer_eq_none (h : RecordLaw profile slot x) (hst : x.state ≠ .empty) : x.presenceTimer = none := by
  cases htimer : x.presenceTimer with
  | none => rfl
  | some finish => exact absurd (h.qualifying (by rw [htimer]; rfl)).1 hst

theorem RecordLaw.read_eq_none (h : RecordLaw profile slot x) (hst : x.state ≠ .identifying) : x.read = none := by
  cases hread : x.read with
  | none => rfl
  | some finish => exact absurd (h.reading.mp (by rw [hread]; rfl)) hst

/-- R131 to R133: a seated module goes in or out of service. -/
theorem RecordLaw.move (h : RecordLaw profile slot x) (hfrom : x.state = .disabled ∨ x.state = .active ∨ x.state = .tripped)
    (hto : st = .disabled ∨ st = .active ∨ st = .tripped)
    (hservice : st = .active → ∃ f, profile = some f ∧ f.installed.testBit slot = true) :
    RecordLaw profile slot { x with state := st, bias := st == .active } := by
  have hempty : x.state ≠ .empty := by rcases hfrom with k | k | k <;> rw [k] <;> nofun
  have hpresence := h.seated hempty
  have hfit : ∀ f, profile = some f → x.identity.toNat = f.identity := fun f hf => by
    rcases hfrom with k | k | k
    · exact h.fit (.inl k) f hf
    · obtain ⟨-, g, hg, hidentity, -⟩ := h.inService k
      rw [hidentity, Option.some.inj (hg.symm.trans hf)]
    · exact h.fit (.inr k) f hf
  have hread := h.read_eq_none (by rcases hfrom with k | k | k <;> rw [k] <;> nofun)
  refine ⟨rfl, fun hst => ?_, fun _ => hfit, fun _ => hpresence, fun htimer => ?_, ?_⟩
  · obtain ⟨f, hf, hinstalled⟩ := hservice hst
    exact ⟨hpresence, f, hf, hfit f hf, hinstalled⟩
  · rw [h.timer_eq_none hempty] at htimer; cases htimer
  · rw [hread]; rcases hto with rfl | rfl | rfl <;> simp

/-- R128: the module is lost. -/
theorem RecordLaw.lose (h : RecordLaw profile slot x) (hst : x.state ≠ .empty) : RecordLaw profile slot
    { x with state := .empty, identity := 0xFF, bias := false, presence := false, read := none } := by
  have htimer := h.timer_eq_none hst
  constructor <;> simp [htimer]

/-- R126: the presence line of an EMPTY position. -/
theorem RecordLaw.line (h : RecordLaw profile slot x) (hst : x.state = .empty) (active : Bool) (finish : Time) : RecordLaw profile slot
      { x with presence := active, presenceTimer := if active = true then some finish else none } := by
  have hbias : x.bias = false := by rw [h.biased, hst]; rfl
  have hread := h.read_eq_none (by rw [hst]; nofun)
  cases active <;> constructor <;> simp [hst, hbias, hread]

/-- R126: the identity read starts. -/
theorem RecordLaw.startRead (h : RecordLaw profile slot x) (htimer : x.presenceTimer.isSome = true)
    (deadline : Time) : RecordLaw profile slot { x with
      state := .identifying, identity := 0xFF, bias := false, presenceTimer := none, read := some deadline } := by
  obtain ⟨-, hpresence⟩ := h.qualifying htimer
  constructor <;> simp [hpresence]

/-- R127: the identity read ends. -/
theorem RecordLaw.endRead (h : RecordLaw profile slot x) (hst : x.state = .identifying) (code : Byte) :
    RecordLaw profile slot { x with state := identifiedState profile code, identity := code, bias := false, read := none } := by
  have hempty : x.state ≠ .empty := by rw [hst]; nofun
  have hpresence := h.seated hempty
  have htimer := h.timer_eq_none hempty
  cases profile with
  | none => constructor <;> simp [identifiedState_none, hpresence, htimer]
  | some f => by_cases hf : code.toNat = f.identity <;> constructor <;> simp [identifiedState_some, hf, hpresence, htimer]

/-- R137: the re-check under a new profile. -/
theorem RecordLaw.rechecked (h : RecordLaw profile k.val x) (f : Profile) :
    RecordLaw (some f) k.val (recheckedRecord f k x) := by
  have hstate := recheckedRecord_state f k x
  have haccepted : accepted (some f) x.identity = true ↔ x.identity.toNat = f.identity := by simp [accepted]
  by_cases hsame : (recheckedRecord f k x).state = x.state
  · rw [hsame] at hstate
    rw [recheckedRecord_of_same f k x hsame]
    refine ⟨h.biased, fun hst => ?_, fun hst g hg => ?_, h.seated, h.qualifying, h.reading⟩
    · rw [hst] at hstate
      cases hok : accepted (some f) x.identity <;> cases hin : f.installs k <;>
        simp [hok, hin, recheckedState] at hstate
      exact ⟨(h.inService hst).1, f, rfl, haccepted.mp hok, hin⟩
    · obtain rfl : f = g := Option.some.inj hg
      refine haccepted.mp ?_
      rcases hst with hst | hst <;> rw [hst] at hstate <;>
        cases hok : accepted (some f) x.identity <;> simp [hok, recheckedState] at hstate ⊢
  · rw [recheckedRecord_of_changed f k x hsame]
    rw [hstate] at hsame
    have hfrom : x.state ≠ .empty ∧ x.state ≠ .identifying ∧
        ((recheckedRecord f k x).state = .refused
          ∨ (recheckedRecord f k x).state = .disabled ∧ accepted (some f) x.identity = true) := by
      rw [hstate]
      cases hst : x.state <;> cases hok : accepted (some f) x.identity <;> cases hin : f.installs k <;>
        simp [hst, hok, hin, recheckedState] at hsame ⊢
    obtain ⟨hempty, hidentifying, hto⟩ := hfrom
    have hread := h.read_eq_none hidentifying
    have htimer := h.timer_eq_none hempty
    have hpresence := h.seated hempty
    rcases hto with hto | ⟨hto, hok⟩
    · rw [hto]; constructor <;> simp [hread, htimer, hpresence]
    · rw [hto]; constructor <;> simp [hread, htimer, hpresence, haccepted.mp hok]

end

/-! ## One position changes -/

theorem activeCount_setPosition_of_other (h : c ≠ channelOf p) : activeCount (s.setPosition p x) c = activeCount s c :=
  activeCount_congr fun k => by
    rw [State.setPosition_position_ne _ _ _ _ (fun hk => h (by rw [← hk]; simp))]

/-- The counts sent with a change of one position: none, where the count is as before, or the count after it. -/
def SentCount (s : State) (p : PositionIx) (x : PositionRecord) (sent : List Nat) : Prop :=
  sent = [] ∧ (x.state = .active ↔ (s.position p).state = .active)
  ∨ sent = [activeCount (s.setPosition p x) (channelOf p)]

theorem sentCount_countSent (p : PositionIx) (x : PositionRecord) (s : State) :
    SentCount s p x (countSent p x.state s) := by
  have hcount := activeCount_setPosition s p x
  unfold SentCount countSent
  by_cases hbefore : (s.position p).state = .active <;> by_cases hafter : x.state = .active <;>
    simp only [hbefore, hafter, if_true, if_false, iff_self, and_true, iff_false, false_iff, not_true] at hcount ⊢
  · exact .inl trivial
  · exact .inr (by simp only [List.cons.injEq, and_true]; omega)
  · exact .inr (by simp only [List.cons.injEq, and_true]; omega)
  · exact .inl trivial

/-- One position changes, with the count that R130 calls for. -/
theorem PositionLaws.set {sent : List Nat} (h : PositionLaws s)
    (hlaw : RecordLaw (s.chan (channelOf p)).profile (p.val % 6) x) (hsent : SentCount s p x sent) :
    PositionLaws ((s.setPosition p x).setLink (channelOf p) { s.link (channelOf p) with
      counts := (s.link (channelOf p)).counts ++ sent }) := by
  refine ⟨fun q => ?_, fun c => ?_⟩
  · by_cases hq : q = p
    · subst hq
      rw [positionLaw_iff]
      simpa [State.position, State.chan] using hlaw
    · exact (h.1 q).congr (State.setPosition_position_ne _ _ _ _ hq) rfl
  · by_cases hc : c = channelOf p
    · subst hc
      have hold := h.2 (channelOf p)
      rcases hsent with ⟨rfl, hactive⟩ | rfl
      · have hcount := activeCount_setPosition s p x
        have hsame : activeCount (s.setPosition p x) (channelOf p) = activeCount s (channelOf p) := by
          simp only [hactive] at hcount; omega
        exact hold.congr rfl (by simp) hsame rfl
      · intro f _
        simp only [State.setLink_link_same, List.getLast?_append, List.getLast?_singleton, Option.some_or]
        rfl
    · refine (h.2 c).congr rfl (by simp [hc]) ?_ rfl
      exact activeCount_setPosition_of_other hc

theorem PositionLaws.record (h : PositionLaws s) (p : PositionIx) : RecordLaw (s.chan (channelOf p)).profile (p.val % 6)
    (s.position p) := (positionLaw_iff s p).mp (h.1 p)

theorem PositionLaws.setPosition (h : PositionLaws s) (hlaw : RecordLaw (s.chan (channelOf p)).profile (p.val % 6) x)
    (hactive : x.state = .active ↔ (s.position p).state = .active) : PositionLaws (s.setPosition p x) := by
  have hset := h.set hlaw (.inl ⟨rfl, hactive⟩)
  have hlink : ({ s.link (channelOf p) with counts := (s.link (channelOf p)).counts ++ [] } : ChannelLinks)
      = s.link (channelOf p) := by rw [List.append_nil]
  rw [hlink] at hset
  exact reads_positionLaws.keep (ps := []) (s := (s.setPosition p x).setLink (channelOf p) (s.link (channelOf p)))
    (by rw [show s.link (channelOf p) = (s.setPosition p x).link (channelOf p) from rfl, State.setLink_self]; exact .refl _ _)
    (by simp) hset

theorem PositionLaws.journal (h : PositionLaws s) (x : JournalWriter) : PositionLaws (s.setJournal x) :=
  reads_positionLaws.keep (ps := [.journal]) (by simp) (by simp) h

/-! ## Events and requests -/

/-- R131 to R133: a counted move between the states of a seated module, and its record. -/
theorem PositionLaws.moved (h : PositionLaws s) (after : Option Stamp) (condition : Option EntryIx) (value : Option Nat)
    (hfrom : (s.position p).state = .disabled ∨ (s.position p).state = .active ∨ (s.position p).state = .tripped)
    (hto : st = .disabled ∨ st = .active ∨ st = .tripped)
    (hservice : st = .active → ∃ f, (s.chan (channelOf p)).profile = some f ∧ f.installed.testBit (p.val % 6) = true) :
    PositionLaws (recordPosition p after condition value (moveCounted p st s)) := by
  rw [recordPosition_eq]
  refine PositionLaws.journal ?_ _
  rw [moveCounted_eq]
  exact h.set ((h.record p).move hfrom hto hservice)
    (sentCount_countSent p { s.position p with state := st, bias := st == .active } s)

theorem positionLaws_loseModule (h : PositionLaws s) (hst : (s.position p).state ≠ .empty) :
    PositionLaws (loseModule p s) := by
  rw [loseModule_eq]
  exact (h.set ((h.record p).lose hst) (sentCount_countSent p
    { s.position p with state := .empty, identity := 0xFF, bias := false, presence := false, read := none } s)).journal _

theorem positionLaws_takePresence (h : PositionLaws s) (active : Bool) : PositionLaws (takePresence p active s) := by
  by_cases hst : (s.position p).state = .empty
  · rw [takePresence_of_empty active hst]
    exact h.setPosition ((h.record p).line hst active _) Iff.rfl
  · cases active with
    | true =>
      have hpresence := (h.record p).seated hst
      rw [takePresence_of_seated hst, ← hpresence]
      exact h.setPosition (h.record p) Iff.rfl
    | false => rw [takePresence_of_lost hst]; exact positionLaws_loseModule h hst

theorem startRead_eq (p : PositionIx) (s : State) : startRead p s = s.setPosition p { s.position p with
    state := .identifying, identity := 0xFF, bias := false, presenceTimer := none
    read := some (later s.now Config.identityReadMs) } := by
  rw [startRead, moveTo_eq, State.setPosition_position_same]
  simp [State.setPosition, beq_active_of_ne (st := .identifying) (by simp)]

theorem positionLaws_startRead (h : PositionLaws s) (htimer : (s.position p).presenceTimer.isSome = true)
    (hst : (s.position p).state = .empty) : PositionLaws (startRead p s) := by
  rw [startRead_eq]
  exact h.setPosition ((h.record p).startRead htimer _) (by simp [hst])

theorem positionLaws_endRead (h : PositionLaws s) (hst : (s.position p).state = .identifying) (code : Byte) :
    PositionLaws (endRead p code s) := by
  have hout := identifiedState_ne_active (s.chan (channelOf p)).profile code
  rw [endRead_eq p code s _ rfl hout]
  refine (h.setPosition ((h.record p).endRead hst code) ?_).journal _
  simp [hst, hout]

theorem positionLaws_takeTrip (h : PositionLaws s) (e : EntryIx) (after : Option Stamp) :
    PositionLaws (takeTrip p e after s) := by
  by_cases hst : (s.position p).state = .active
  · rw [takeTrip_of_active e after hst]
    exact h.moved _ _ _ (.inr (.inl hst)) (.inr (.inr rfl)) nofun
  · rw [takeTrip_of_out e after hst]
    exact h.journal _

theorem enableRefusal_eq_none (h : enableRefusal p s = none) :
    (∃ f, (s.chan (channelOf p)).profile = some f ∧ f.installed.testBit (p.val % 6) = true)
    ∧ ((s.position p).state = .disabled ∨ (s.position p).state = .tripped) := by
  unfold enableRefusal at h
  split at h
  · cases h
  · next f hf =>
    split_ifs at h with hinstalled hbears
    split at h
    · next hst => exact ⟨⟨f, hf, by simpa using hinstalled⟩, .inl hst⟩
    · next hst => exact ⟨⟨f, hf, by simpa using hinstalled⟩, .inr hst⟩
    all_goals cases h

theorem positionLaws_enablePosition (h : PositionLaws s) : PositionLaws (enablePosition a s).1 := by
  unfold enablePosition
  split
  · exact h
  · split
    · exact h
    · next hfree =>
      obtain ⟨hinstalled, hst⟩ := enableRefusal_eq_none hfree
      exact h.moved _ _ _ (hst.elim .inl fun k => .inr (.inr k)) (.inr (.inl rfl)) (fun _ => hinstalled)

theorem positionLaws_disablePosition (h : PositionLaws s) : PositionLaws (disablePosition a s).1 := by
  unfold disablePosition
  split
  · exact h
  · split
    · next hst => exact h.moved _ _ _ (.inr (.inl hst)) (.inl rfl) nofun
    · next hst => exact h.moved _ _ _ (.inr (.inr hst)) (.inl rfl) nofun
    all_goals exact h

/-! ## Counts taken, and a profile loaded -/

/-- R115: a count taken from the head of the link. -/
theorem positionLaws_countTaken {n : Nat} {rest : List Nat} (h : PositionLaws s) (hcounts : (s.link c).counts = n :: rest)
    (hlink : ∀ d, (t.link d).counts = if d = c then rest else (s.link d).counts)
    (hceiling : ∀ p, (s.chan c).profile = some p → (t.resolver c).positions = some (ceilingFor p n))
    (hothers : ∀ d, d ≠ c → (t.resolver d).positions = (s.resolver d).positions)
    (hpositions : t.positions = s.positions) (hchans : t.chans = s.chans) : PositionLaws t := by
  have hchan : ∀ d, t.chan d = s.chan d := fun d => by rw [State.chan, hchans]; rfl
  have hposition : ∀ p, t.position p = s.position p := fun p => by rw [State.position, hpositions]; rfl
  refine ⟨fun p => (h.1 p).congr (hposition p) (by rw [hchan]), fun d => ?_⟩
  have hactive : activeCount t d = activeCount s d := activeCount_congr fun k => by rw [hposition]
  by_cases hd : d = c
  · subst hd
    intro p hp
    rw [hchan] at hp
    have hold := h.2 d p hp
    rw [hcounts] at hold
    rw [hlink d, if_pos rfl, hceiling p hp, hactive]
    cases rest with
    | nil =>
      have hn : n = activeCount s d := hold
      rw [← hn]
      rfl
    | cons m rest => exact hold
  · exact (h.2 d).congr (by rw [hchan]) (by rw [hlink d, if_neg hd]) hactive (hothers d hd)

theorem changeEntry_frame (c : Channel) (r : DriveResolver) (s : State) : changeEntry c r s
    = { s with resolvers := (changeEntry c r s).resolvers, links := (changeEntry c r s).links } := by
  by_cases hsame : r = s.resolver c
  · rw [changeEntry, if_pos hsame]
  · rw [changeEntry_eq_set hsame]

theorem changeEntry_positions (c d : Channel) (r : DriveResolver) (s : State) :
    ((changeEntry c r s).resolver d).positions = if d = c then r.positions else (s.resolver d).positions := by
  by_cases hsame : r = s.resolver c
  · rw [changeEntry, if_pos hsame, hsame]
    split
    · next hd => rw [hd]
    · rfl
  · rw [changeEntry_eq_set hsame, State.resolver, look_put]
    split <;> rfl

theorem changeEntry_counts (c d : Channel) (r : DriveResolver) (s : State) :
    ((changeEntry c r s).link d).counts = (s.link d).counts := by
  by_cases hsame : r = s.resolver c
  · rw [changeEntry, if_pos hsame]
  · rw [changeEntry_eq_set hsame, State.link, look_put]
    split
    · next hd => rw [hd]
    · rfl

theorem positionOf_of_channelOf (h : channelOf p = c) : p = positionOf c (slotOf p) := by
  rw [← h, positionOf_slotOf]

/-- R50, R52, R137: a profile loaded. -/
theorem positionLaws_installProfile (h : PositionLaws s) (c : Channel) (f : Profile) :
    PositionLaws (installProfile c f s) := by
  rw [installProfile_eq]
  obtain ⟨hframe, hslots, hothers, -⟩ := recheckedBy_slots c f s
  generalize recheckedBy c f s = u at *
  have hchan : ∀ d, u.chan d = if d = c then { s.chan c with profile := some f } else s.chan d := fun d => by
    rw [hframe]; exact look_put _ _ _ _
  have hlink : u.link = s.link := by rw [hframe]; rfl
  have hresolver : u.resolver = s.resolver := by rw [hframe]; rfl
  refine ⟨fun p => ?_, fun d => ?_⟩
  · by_cases hp : channelOf p = c
    · have hposition := hslots (slotOf p) (List.mem_finRange _)
      rw [← positionOf_of_channelOf hp] at hposition
      have hlaw := ((h.record p).rechecked (k := slotOf p) f)
      rw [positionLaw_iff]
      have hprofile : (u.chan (channelOf p)).profile = some f := by rw [hchan, if_pos hp]
      simp only [State.setResolver_position, State.setLink_position, State.setResolver_chan, State.setLink_chan, hprofile]
      rw [hposition]
      exact hlaw
    · refine (h.1 p).congr (hothers p fun k _ hk => hp (by rw [hk]; simp)) ?_
      show (u.chan (channelOf p)).profile = _
      rw [hchan, if_neg hp]
  · by_cases hd : d = c
    · subst hd
      intro g _
      simp only [State.setResolver_link, State.setLink_link_same, List.getLast?_append, List.getLast?_singleton,
        Option.some_or]
      rfl
    · refine (h.2 d).congr ?_ ?_ ?_ ?_
      · show (u.chan d).profile = _
        rw [hchan, if_neg hd]
      · simp [hd, hlink]
      · refine activeCount_congr fun k => congrArg PositionRecord.state ?_
        exact hothers _ fun j _ hk => hd ((positionOf_inj.mp hk).1)
      · simp [hd, hresolver]

/-! ## Commands -/

theorem positionLaws_leaveReset (powerOn : Bool) (pins : Pins) (s : State) : PositionLaws (leaveReset powerOn pins s) :=
  positionLaws_of_reset (fun p => ⟨look pins.presence p, look_ofFn _ p⟩) rfl

theorem positionLaws_blocksReset (phase : Phase) (mem : Memory) (pending : List Instr) :
    PositionLaws { State.reset with phase := phase, mem := mem, pending := pending } :=
  positionLaws_of_reset (fun p => ⟨false, look_replicate _ p⟩) rfl

theorem exec_leads_positionLaws (cmd : Instr) (hvisit : cmd ≠ .slotVisit) (h : PositionLaws s) :
    Leads PositionLaws (exec cmd s) := by
  cases cmd with
  | powerOnReset _ _ | controllerReset _ _ | backplaneResetRelease _ | supplyLoss =>
    exact leads_of_isReset rfl (fun _ => positionLaws_blocksReset _ _ _) (fun _ _ => positionLaws_leaveReset _ _ _)
      (positionLaws_blocksReset _ _ _) h
  | slotVisit => exact absurd rfl hvisit
  | loadProfile =>
    exact leads_next.mpr (reads_positionLaws.keep_visitFor (by simp) _
      (fun _ _ hu => loadProfile_keeps hu fun c f _ _ => positionLaws_installProfile hu c f) h)
  | enablePosition =>
    exact leads_next.mpr (reads_positionLaws.keep_visitFor (by simp) _ (fun _ _ => positionLaws_enablePosition) h)
  | disablePosition =>
    exact leads_next.mpr (reads_positionLaws.keep_visitFor (by simp) _ (fun _ _ => positionLaws_disablePosition) h)
  | positionCount c =>
    refine leads_positionCount h (fun n rest hcounts hp => ?_) (fun n rest p hcounts hp => ?_)
    · exact positionLaws_countTaken h hcounts (fun d => by by_cases hd : d = c <;> simp [hd])
        (fun p hsome => by rw [hp] at hsome; cases hsome) (fun _ _ => rfl) rfl rfl
    · refine positionLaws_countTaken h hcounts (fun d => ?_) (fun q hq => ?_) (fun d hd => ?_) ?_ ?_
      · rw [changeEntry_counts]; by_cases hd : d = c <;> simp [hd]
      · rw [changeEntry_positions, if_pos rfl, Option.some.inj (hp.symm.trans hq)]
      · rw [changeEntry_positions, if_neg hd]; rfl
      · rw [changeEntry_frame]; rfl
      · rw [changeEntry_frame]; rfl
  | presenceChange p active spell => exact leads_ite_next (fun _ => positionLaws_takePresence h active) h
  | presenceTimerEnd p =>
    show Leads PositionLaws (execPresenceTimerEnd p s)
    unfold execPresenceTimerEnd
    split
    · exact leads_next.mpr h
    · next htimer => exact leads_ite_next (fun hend => positionLaws_startRead h (by rw [htimer]; rfl) hend.2) h
  | identityReadEnd p code =>
    show Leads PositionLaws (execIdentityReadEnd p code s)
    unfold execIdentityReadEnd
    split
    · exact leads_next.mpr h
    · exact leads_ite_next (fun hread => positionLaws_endRead h hread.2 _) h
  | positionTrip p e =>
    show Leads PositionLaws (execPositionTrip p e s)
    unfold execPositionTrip
    split
    · exact leads_next.mpr h
    · exact leads_next.mpr (positionLaws_takeTrip (reads_positionLaws.keep (ps := [.trips]) (by simp) (by simp) h) e _)
  | _ => exact fun t ht => reads_positionLaws.keep_exec ht (by simp [footprint]) h

/-- Settles O58: by what each command does to a position, a profile or a count. -/
theorem stepKeepsPositionLaws : Obligations.StepKeepsPositionLaws := fun s t h ht =>
  reads_positionLaws.keep_step (by simp) (fun cmd _ t hcmd hs => exec_leads_positionLaws cmd hcmd hs t) s t h ht

end Sys2Proof.Machine


/-! The laws of the channels and the Arbiter, taken apart: what holds of one channel's own blocks, and what holds of
the queue and the engine. -/

namespace Sys2Proof.Machine

variable {s t : State} {c d : Channel} {p : Profile} {x x' : ChannelController} {k k' : StrikeAccounting}
  {r r' : DriveResolver} {A B : Arbiter} {st st' : Channel → ChannelState}

/-! ## The queue and the engine -/

/-- R94, R97, R98: the Arbiter, against the states of the channels. -/
structure PlaceLaw (A : Arbiter) (st : Channel → ChannelState) : Prop where
  queued : ∀ c, c ∈ A.high ++ A.low ↔ (st c).waiting = true
  holds : ∀ c, A.engine = .held c ↔ st c = .ramping
  once : (A.high ++ A.low).Nodup
  granted : A.engine = .free → A.high ++ A.low = []

theorem grantFrom_eq_free {e : Engine} {high low : List Channel} (h : grantFrom e high low = .free) :
    high ++ low = [] := by
  unfold grantFrom at h
  cases hq : high ++ low with
  | nil => rfl
  | cons c rest => rw [hq] at h; cases e <;> cases h

theorem grantFrom_eq_held {e : Engine} {high low : List Channel} :
    grantFrom e high low = .held c ↔ e = .held c := by
  unfold grantFrom
  cases high ++ low <;> cases e <;> simp

theorem releasedBy_eq_held {e : Engine} : releasedBy c e = .held d ↔ e = .held d ∧ d ≠ c := by
  unfold releasedBy
  split
  · next h => rw [h]; simp [eq_comm]
  · next h =>
    refine ⟨fun hd => ⟨hd, ?_⟩, And.left⟩
    rintro rfl
    exact h hd

/-- A channel leaves the queue and the engine, and what is free is granted. -/
theorem PlaceLaw.leave (h : PlaceLaw A st) (hothers : ∀ d, d ≠ c → st' d = st d) (hwaiting : (st' c).waiting = false)
    (hramping : st' c ≠ .ramping) (hmem : ∀ d, d ∈ B.high ++ B.low ↔ d ≠ c ∧ d ∈ A.high ++ A.low)
    (honce : (B.high ++ B.low).Nodup) (hengine : B.engine = grantFrom (releasedBy c A.engine) B.high B.low) :
    PlaceLaw B st' := by
  refine ⟨fun d => ?_, fun d => ?_, honce, fun hfree => grantFrom_eq_free (hengine ▸ hfree)⟩
  · rw [hmem d]
    by_cases hd : d = c
    · subst hd; simp [hwaiting]
    · rw [hothers d hd, h.queued d]; simp [hd]
  · rw [hengine, grantFrom_eq_held, releasedBy_eq_held]
    by_cases hd : d = c
    · subst hd; simp [hramping]
    · rw [hothers d hd, h.holds d]; simp [hd]

/-- A channel joins the queue, leaving the engine if it holds it, and what is free is granted. -/
theorem PlaceLaw.join (h : PlaceLaw A st) (hothers : ∀ d, d ≠ c → st' d = st d) (hwaiting : (st' c).waiting = true)
    (hmem : ∀ d, d ∈ B.high ++ B.low ↔ d = c ∨ d ∈ A.high ++ A.low)
    (honce : (B.high ++ B.low).Nodup) (hengine : B.engine = grantFrom (releasedBy c A.engine) B.high B.low) :
    PlaceLaw B st' := by
  refine ⟨fun d => ?_, fun d => ?_, honce, fun hfree => grantFrom_eq_free (hengine ▸ hfree)⟩
  · rw [hmem d]
    by_cases hd : d = c
    · subst hd; simp [hwaiting]
    · rw [hothers d hd, h.queued d]; simp [hd]
  · rw [hengine, grantFrom_eq_held, releasedBy_eq_held]
    by_cases hd : d = c
    · subst hd
      have hramping : st' d ≠ .ramping := fun hr => by rw [hr] at hwaiting; cases hwaiting
      simp [hramping]
    · rw [hothers d hd, h.holds d]; simp [hd]

/-- A channel's state changes, in neither class. -/
theorem PlaceLaw.stay (h : PlaceLaw A st) (hothers : ∀ d, d ≠ c → st' d = st d)
    (hwaiting : (st' c).waiting = (st c).waiting) (hramping : st' c = .ramping ↔ st c = .ramping) : PlaceLaw A st' := by
  refine ⟨fun d => ?_, fun d => ?_, h.once, h.granted⟩
  · by_cases hd : d = c
    · rw [hd, h.queued c, hwaiting]
    · rw [hothers d hd, h.queued d]
  · by_cases hd : d = c
    · rw [hd, h.holds c, hramping]
    · rw [hothers d hd, h.holds d]

/-- R98: a waiting channel takes its grant. -/
theorem PlaceLaw.grant (h : PlaceLaw A st) (hgranted : A.engine = .granted c) (hothers : ∀ d, d ≠ c → st' d = st d)
    (hramping : st' c = .ramping) (hhigh : B.high = without c A.high) (hlow : B.low = without c A.low)
    (hengine : B.engine = .held c) : PlaceLaw B st' := by
  have happend : B.high ++ B.low = without c (A.high ++ A.low) := by
    rw [hhigh, hlow, without, without, without, List.filter_append]
  refine ⟨fun d => ?_, fun d => ?_, by rw [happend]; exact h.once.filter _, fun hfree => by rw [hengine] at hfree; cases hfree⟩
  · rw [happend]
    by_cases hd : d = c
    · subst hd; simp [without, hramping, ChannelState.waiting]
    · rw [hothers d hd, ← h.queued d]; simp [without, hd]
  · rw [hengine]
    by_cases hd : d = c
    · subst hd; simp [hramping]
    · have hnot : st d ≠ .ramping := fun hr => by
        have := (h.holds d).mpr hr
        rw [hgranted] at this
        cases this
      rw [hothers d hd]
      simp [hnot, Ne.symm hd]

/-- R99: a grant handed back. -/
theorem PlaceLaw.handBack (h : PlaceLaw A st) (hgranted : A.engine = .granted c) (hhigh : B.high = A.high)
    (hlow : B.low = A.low) (hengine : B.engine = grantFrom .free A.high A.low) : PlaceLaw B st := by
  refine ⟨fun d => by rw [hhigh, hlow]; exact h.queued d, fun d => ?_, by rw [hhigh, hlow]; exact h.once,
    fun hfree => by rw [hhigh, hlow]; exact grantFrom_eq_free (hengine ▸ hfree)⟩
  rw [← h.holds d, hengine, grantFrom_eq_held, hgranted]
  simp

/-- The Arbiter's other fields. -/
theorem PlaceLaw.congr (h : PlaceLaw A st) (hhigh : B.high = A.high) (hlow : B.low = A.low)
    (hengine : B.engine = A.engine) : PlaceLaw B st :=
  ⟨by rw [hhigh, hlow]; exact h.queued, by rw [hengine]; exact h.holds, by rw [hhigh, hlow]; exact h.once,
    by rw [hengine, hhigh, hlow]; exact h.granted⟩

theorem mem_without_append (high low : List Channel) (c d : Channel) :
    d ∈ without c high ++ without c low ↔ d ≠ c ∧ d ∈ high ++ low := by
  simp only [without, List.mem_append, List.mem_filter, bne_iff_ne]
  tauto

theorem without_append_nodup {high low : List Channel} (h : (high ++ low).Nodup) (c : Channel) :
    (without c high ++ without c low).Nodup := by
  rw [without, without, ← List.filter_append]
  exact h.filter _

theorem mem_tailIf_append (high low : List Channel) (isHigh isLow : Bool) (hone : isLow = !isHigh) (c d : Channel) :
    d ∈ tailIf isHigh c high ++ tailIf isLow c low ↔ d = c ∨ d ∈ high ++ low := by
  subst hone
  cases isHigh <;> simp [tailIf] <;> tauto

theorem tailIf_append_nodup {high low : List Channel} (h : (high ++ low).Nodup) {c : Channel} (hout : c ∉ high ++ low)
    {isHigh isLow : Bool} (hone : isLow = !isHigh) : (tailIf isHigh c high ++ tailIf isLow c low).Nodup := by
  subst hone
  have hperm : (tailIf isHigh c high ++ tailIf (!isHigh) c low).Perm (c :: (high ++ low)) := by
    cases isHigh
    · simp only [tailIf, Bool.not_false, if_true, ← List.append_assoc]
      exact List.perm_append_singleton _ _
    · simp only [tailIf, Bool.not_true, if_true, List.append_assoc]
      exact List.perm_middle
  exact hperm.nodup_iff.mpr (List.nodup_cons.mpr ⟨hout, h⟩)

/-! ## The blocks of one channel -/

/-- What holds of a channel's own blocks: `ChannelLaw` without the Arbiter. -/
structure AirLaw (x : ChannelController) (k : StrikeAccounting) (r : DriveResolver) : Prop where
  muted : x.mute = !x.state.live
  silent : x.mute = true → r.drive = 0
  driven : r.drive ≤ r.resolved
  ramped : r.ramp.isSome = x.state.ramped
  asked : k.pending = true ↔ x.state = .confirmWait
  timed : k.timer.isSome = k.pending
  atRest : x.state ≠ .holdoff → x.holdoff = none ∧ x.extended = false
  waits : x.state = .holdoff → x.holdoff.isSome = !x.extended
  unprofiled : x.profile = none → x.state = .off
  profiled : ∀ p, x.profile = some p → checkProfile p = none
  limited : x.profile.isSome = true → r.target.isSome = true ∧ r.positions.isSome = true
  cleared : x.state = .off → k.times = [] ∧ r.foldback = none ∧ r.floorMarks = 0
  counted : ∀ p, x.profile = some p → k.times.length ≤ p.lockoutThreshold
  spared : ∀ p, x.profile = some p → x.state ≠ .lockout → k.times.length < p.lockoutThreshold
  floored : ∀ p level, x.profile = some p → r.foldback = some level → p.foldbackFloor ≤ level ∧ level ≤ 1000

theorem channelLaws_iff (s : State) : ChannelLaws s ↔ (∀ c, AirLaw (s.chan c) (s.strike c) (s.resolver c))
    ∧ PlaceLaw s.arbiter (fun c => (s.chan c).state) := by
  constructor
  · rintro ⟨hchannels, honce, hgranted⟩
    refine ⟨fun c => ?_, ⟨fun c => (hchannels c).queued, fun c => (hchannels c).holds, honce, hgranted⟩⟩
    have h := hchannels c
    exact ⟨h.muted, h.silent, h.driven, h.ramped, h.asked, h.timed, h.atRest, h.waits, h.unprofiled, h.profiled, h.limited,
      h.cleared, h.counted, h.spared, h.floored⟩
  · rintro ⟨hair, hplace⟩
    refine ⟨fun c => ?_, hplace.once, hplace.granted⟩
    have h := hair c
    exact ⟨h.muted, h.silent, h.driven, h.ramped, h.asked, h.timed, hplace.queued c, hplace.holds c, h.atRest, h.waits,
      h.unprofiled, h.profiled, h.limited, h.cleared, h.counted, h.spared, h.floored⟩

/-- The blocks of one channel change, and the Arbiter with them. -/
theorem ChannelLaws.change (h : ChannelLaws s) (c : Channel) (hchans : ∀ d, d ≠ c → t.chan d = s.chan d)
    (hstrikes : ∀ d, d ≠ c → t.strike d = s.strike d) (hresolvers : ∀ d, d ≠ c → t.resolver d = s.resolver d)
    (hair : AirLaw (t.chan c) (t.strike c) (t.resolver c)) (hplace : PlaceLaw t.arbiter (fun d => (t.chan d).state)) :
    ChannelLaws t := by
  refine (channelLaws_iff t).mpr ⟨fun d => ?_, hplace⟩
  by_cases hd : d = c
  · rw [hd]; exact hair
  · rw [hchans d hd, hstrikes d hd, hresolvers d hd]
    exact ((channelLaws_iff s).mp h).1 d

theorem ChannelLaws.air (h : ChannelLaws s) (c : Channel) : AirLaw (s.chan c) (s.strike c) (s.resolver c) :=
  ((channelLaws_iff s).mp h).1 c

theorem ChannelLaws.place (h : ChannelLaws s) : PlaceLaw s.arbiter (fun c => (s.chan c).state) :=
  ((channelLaws_iff s).mp h).2

theorem ramped_of_not_live {st : ChannelState} (h : st.live = false) : st.ramped = false := by
  cases st with
  | ramping | paused => cases h
  | off | queued | on | holdoff | confirmWait | lockout | interlocked => rfl

/-- What a channel keeps of its profile, whatever its state. -/
structure Profiled (p : Profile) (x : ChannelController) (r : DriveResolver) : Prop where
  loaded : x.profile = some p
  checked : checkProfile p = none
  limited : r.target.isSome = true ∧ r.positions.isSome = true
  floored : ∀ level, r.foldback = some level → p.foldbackFloor ≤ level ∧ level ≤ 1000

theorem AirLaw.profile (h : AirLaw x k r) (hoff : x.state ≠ .off) : ∃ p, Profiled p x r := by
  cases hp : x.profile with
  | none => exact absurd (h.unprofiled hp) hoff
  | some p => exact ⟨p, hp, h.profiled p hp, h.limited (by rw [hp]; rfl), fun level => h.floored p level hp⟩

theorem Profiled.congr (h : Profiled p x r) (hprofile : x'.profile = x.profile) (htarget : r'.target = r.target)
    (hpositions : r'.positions = r.positions) (hfoldback : r'.foldback = r.foldback) : Profiled p x' r' :=
  ⟨hprofile.trans h.loaded, h.checked, by rw [htarget, hpositions]; exact h.limited, by rw [hfoldback]; exact h.floored⟩

/-- A channel with a profile, in a state other than OFF: what is left is its state, its drive and its strikes. -/
theorem Profiled.airLaw (h : Profiled p x r) (hoff : x.state ≠ .off) (hmuted : x.mute = !x.state.live)
    (hsilent : x.mute = true → r.drive = 0) (hdriven : r.drive ≤ r.resolved) (hramped : r.ramp.isSome = x.state.ramped)
    (hasked : k.pending = true ↔ x.state = .confirmWait) (htimed : k.timer.isSome = k.pending)
    (hatRest : x.state ≠ .holdoff → x.holdoff = none ∧ x.extended = false)
    (hwaits : x.state = .holdoff → x.holdoff.isSome = !x.extended)
    (hcounted : k.times.length ≤ p.lockoutThreshold)
    (hspared : x.state ≠ .lockout → k.times.length < p.lockoutThreshold) : AirLaw x k r := by
  have hone : ∀ q, x.profile = some q → q = p := fun q hq => Option.some.inj (hq.symm.trans h.loaded)
  refine ⟨hmuted, hsilent, hdriven, hramped, hasked, htimed, hatRest, hwaits, fun hp => ?_, fun q hq => ?_,
    fun _ => h.limited, fun hst => absurd hst hoff, fun q hq => ?_, fun q hq => ?_, fun q level hq => ?_⟩
  · rw [h.loaded] at hp; cases hp
  · rw [hone q hq]; exact h.checked
  · rw [hone q hq]; exact hcounted
  · rw [hone q hq]; exact hspared
  · rw [hone q hq]; exact h.floored level

/-- A silent channel, with the profile of `x` and in a state other than OFF. -/
theorem Profiled.toMuted (h : Profiled p x r) (hprofile : x'.profile = x.profile) (htarget : r'.target = r.target)
    (hpositions : r'.positions = r.positions) (hfoldback : r'.foldback = r.foldback) (hoff : x'.state ≠ .off)
    (hlive : x'.state.live = false) (hmute : x'.mute = true) (hdrive : r'.drive = 0) (hramp : r'.ramp = none)
    (hasked : k'.pending = true ↔ x'.state = .confirmWait) (htimed : k'.timer.isSome = k'.pending)
    (hatRest : x'.state ≠ .holdoff → x'.holdoff = none ∧ x'.extended = false)
    (hwaits : x'.state = .holdoff → x'.holdoff.isSome = !x'.extended)
    (hcounted : k'.times.length ≤ p.lockoutThreshold)
    (hspared : x'.state ≠ .lockout → k'.times.length < p.lockoutThreshold) : AirLaw x' k' r' :=
  (h.congr hprofile htarget hpositions hfoldback).airLaw hoff (by rw [hmute, hlive]; rfl) (fun _ => hdrive)
    (by rw [hdrive]; exact Nat.zero_le _) (by rw [hramp, ramped_of_not_live hlive]; rfl) hasked htimed hatRest hwaits
    hcounted hspared

theorem AirLaw.pending_eq_false (h : AirLaw x k r) (hst : x.state ≠ .confirmWait) : k.pending = false :=
  Bool.eq_false_iff.mpr fun hp => hst (h.asked.mp hp)

theorem AirLaw.timer_eq_none (h : AirLaw x k r) (hpending : k.pending = false) : k.timer = none := by
  have htimed := h.timed
  rw [hpending] at htimed
  simpa using htimed

/-- R80, R88: a confirmation that has ended, or was not PENDING. -/
theorem AirLaw.ended_timer (h : AirLaw x k r) : (if k.pending = true then none else k.timer) = none := by
  split
  · rfl
  · next hp => exact h.timer_eq_none (by simpa using hp)

theorem AirLaw.mute_of_not_live (h : AirLaw x k r) (hlive : x.state.live = false) : x.mute = true := by
  rw [h.muted, hlive]; rfl

theorem AirLaw.ramp_of_not_live (h : AirLaw x k r) (hlive : x.state.live = false) : r.ramp = none := by
  have hramped := h.ramped
  rw [ramped_of_not_live hlive] at hramped
  simpa using hramped

theorem live_or_queued_cases {st : ChannelState} (h : st.live = true ∨ st = .queued) :
    st ≠ .off ∧ st ≠ .lockout ∧ st ≠ .holdoff ∧ st ≠ .confirmWait := by
  cases st with
  | ramping | paused | on | queued => decide
  | off | holdoff | confirmWait | lockout | interlocked => simp [ChannelState.live] at h

/-- R49, R55 to R57: a channel with nothing on its record goes to a live state. -/
theorem AirLaw.toLive (h : AirLaw x k r) (hfrom : x.state.live = true ∨ x.state = .queued) (hto : x'.state.live = true)
    (hprofile : x'.profile = x.profile) (hholdoff : x'.holdoff = x.holdoff) (hextended : x'.extended = x.extended)
    (hmute : x'.mute = false) (htarget : r'.target = r.target) (hpositions : r'.positions = r.positions)
    (hfoldback : r'.foldback = r.foldback) (hdriven : r'.drive ≤ r'.resolved)
    (hramped : r'.ramp.isSome = x'.state.ramped) : AirLaw x' k r' := by
  obtain ⟨hoff, hlockout, hout, hwait⟩ := live_or_queued_cases hfrom
  obtain ⟨hoff', -, hout', hwait'⟩ := live_or_queued_cases (.inl hto)
  obtain ⟨p, hprofiled⟩ := h.profile hoff
  refine (hprofiled.congr hprofile htarget hpositions hfoldback).airLaw hoff' (by rw [hmute, hto]; rfl)
    (fun hm => by rw [hmute] at hm; cases hm) hdriven hramped ?_ h.timed (fun _ => ?_) (fun k => absurd k hout')
    (h.counted p hprofiled.loaded) (fun _ => h.spared p hprofiled.loaded hlockout)
  · rw [h.pending_eq_false hwait]; simp [hwait']
  · rw [hholdoff, hextended]; exact h.atRest hout

/-- R51: a profile that passes its check locks a channel out at the first strike at the earliest. -/
theorem one_le_lockoutThreshold (h : checkProfile p = none) : 1 ≤ p.lockoutThreshold := by
  have hspec := checkProfile_spec p
  rw [h] at hspec
  have hpasses : ProfileFieldPasses p 16 := hspec 16 (by decide) (by decide)
  exact hpasses.1

/-- R72, R90: a channel in OFF. -/
theorem AirLaw.enterOff (h : AirLaw x k r) (hprofile : x'.profile = x.profile) (hoff : x'.state = .off)
    (hmute : x'.mute = true) (hholdoff : x'.holdoff = none ∧ x'.extended = false) (htimes : k'.times = [])
    (hpending : k'.pending = false) (htimer : k'.timer = none) (htarget : r'.target = r.target)
    (hpositions : r'.positions = r.positions) (hdrive : r'.drive = 0) (hramp : r'.ramp = none)
    (hfoldback : r'.foldback = none) (hmarks : r'.floorMarks = 0) : AirLaw x' k' r' where
  muted := by rw [hmute, hoff]; rfl
  silent _ := hdrive
  driven := by rw [hdrive]; exact Nat.zero_le _
  ramped := by rw [hramp, hoff]; rfl
  asked := by rw [hpending, hoff]; simp
  timed := by rw [htimer, hpending]; rfl
  atRest _ := hholdoff
  waits hst := by rw [hoff] at hst; cases hst
  unprofiled _ := hoff
  profiled p hp := h.profiled p (hprofile.symm.trans hp)
  limited hp := by rw [hprofile] at hp; rw [htarget, hpositions]; exact h.limited hp
  cleared _ := ⟨htimes, hfoldback, hmarks⟩
  counted _ _ := by rw [htimes]; exact Nat.zero_le _
  spared p hp _ := by
    rw [htimes]
    exact one_le_lockoutThreshold (h.profiled p (hprofile.symm.trans hp))
  floored p level _ hlevel := by rw [hfoldback] at hlevel; cases hlevel

/-- The levels of a channel change, its state and its strikes as before. -/
theorem AirLaw.setLevels (h : AirLaw x k r) (hsilent : x.mute = true → r'.drive = 0) (hdriven : r'.drive ≤ r'.resolved)
    (hramp : r'.ramp.isSome = r.ramp.isSome)
    (hlimited : x.profile.isSome = true → r'.target.isSome = true ∧ r'.positions.isSome = true)
    (hcleared : x.state = .off → r'.foldback = none ∧ r'.floorMarks = 0)
    (hfloored : ∀ p level, x.profile = some p → r'.foldback = some level → p.foldbackFloor ≤ level ∧ level ≤ 1000) :
    AirLaw x k r' :=
  { h with
    silent := hsilent
    driven := hdriven
    ramped := hramp.trans h.ramped
    limited := hlimited
    cleared := fun hoff => ⟨(h.cleared hoff).1, hcleared hoff⟩
    floored := hfloored }

/-- R76: the strike list loses entries. -/
theorem AirLaw.setTimes (h : AirLaw x k r) {times : List Time} (htimes : times.length ≤ k.times.length) :
    AirLaw x { k with times := times } r :=
  { h with
    cleared := fun hoff => by
      obtain ⟨hnone, hlevels⟩ := h.cleared hoff
      rw [hnone] at htimes
      exact ⟨List.eq_nil_of_length_eq_zero (Nat.le_zero.mp htimes), hlevels⟩
    counted := fun p hp => Nat.le_trans htimes (h.counted p hp)
    spared := fun p hp hst => Nat.lt_of_le_of_lt htimes (h.spared p hp hst) }

end Sys2Proof.Machine


/-! The laws of the channels and the Arbiter (R49, R72, R75, R80, R94, R98, R110, R112): kept by every event and
request. -/

namespace Sys2Proof.Machine

variable {s t : State} {c d : Channel} {p : Profile} {x x' : ChannelController} {k k' : StrikeAccounting}
  {r r' : DriveResolver} {A B : Arbiter} {st : ChannelState} {a : Arguments} {after : Option Stamp}

/-! ## A change of one channel -/

/-- The states of the channels after one has changed. -/
def stateBut (s : State) (c : Channel) (st : ChannelState) (d : Channel) : ChannelState :=
  if d = c then st else (s.chan d).state

theorem stateBut_same (s : State) (c : Channel) (st : ChannelState) : stateBut s c st c = st := if_pos rfl

theorem stateBut_of_ne (h : d ≠ c) : stateBut s c st d = (s.chan d).state := if_neg h

theorem ChannelLaws.setBlocks (h : ChannelLaws s) (c : Channel) (hchans : t.chans = put s.chans c x)
    (hstrikes : t.strikes = put s.strikes c k) (hresolvers : t.resolvers = put s.resolvers c r)
    (hair : AirLaw x k r) (hplace : PlaceLaw t.arbiter (stateBut s c x.state)) : ChannelLaws t := by
  have hchan : ∀ d, t.chan d = if d = c then x else s.chan d := fun d => by rw [State.chan, hchans, look_put]; rfl
  have hstrike : ∀ d, t.strike d = if d = c then k else s.strike d := fun d => by
    rw [State.strike, hstrikes, look_put]; rfl
  have hresolver : ∀ d, t.resolver d = if d = c then r else s.resolver d := fun d => by
    rw [State.resolver, hresolvers, look_put]; rfl
  refine h.change c (fun d hd => by rw [hchan, if_neg hd]) (fun d hd => by rw [hstrike, if_neg hd])
    (fun d hd => by rw [hresolver, if_neg hd]) ?_ ?_
  · rw [hchan, hstrike, hresolver, if_pos rfl, if_pos rfl, if_pos rfl]; exact hair
  · have hstates : (fun d => (t.chan d).state) = stateBut s c x.state := by
      funext d; rw [hchan, stateBut]; split <;> rfl
    rw [hstates]; exact hplace

theorem strikes_eq_put (c : Channel) (s : State) : s.strikes = put s.strikes c (s.strike c) := (put_look _ _).symm

theorem resolvers_eq_put (c : Channel) (s : State) : s.resolvers = put s.resolvers c (s.resolver c) := (put_look _ _).symm

/-- What the Arbiter and the Channel Controllers do not hold. -/
theorem ChannelLaws.same {ps : List Part} (h : ChannelLaws s) (hsame : SameBut ps s t)
    (hdisjoint : ∀ p ∈ [Part.chans, .strikes, .levels, .arbiter], p ∉ ps) : ChannelLaws t :=
  reads_channelLaws.keep hsame hdisjoint h

theorem ChannelLaws.setLink (h : ChannelLaws s) (left : ChannelLinks) : ChannelLaws (s.setLink c left) :=
  reads_channelLaws _ _ (by simp [Part.Same, State.resolver]) h

/-! ## The Arbiter's grants -/

theorem stays_out {c : Channel} (hplace : PlaceLaw s.arbiter (fun c => (s.chan c).state))
    (hst : (s.chan c).state.waiting = false) : c ∉ s.arbiter.high ++ s.arbiter.low := fun hc => by
  have := (hplace.queued c).mp hc
  rw [hst] at this
  cases this

/-- R55, R98: a QUEUED channel takes the grant. -/
theorem channelLaws_takeGrantQueued (h : ChannelLaws s) (hgranted : s.arbiter.engine = .granted c)
    (hst : (s.chan c).state = .queued) : ChannelLaws (takeGrantQueued c s) := by
  have hair := h.air c
  have hzero := hair.silent (hair.mute_of_not_live (by rw [hst]; rfl))
  refine h.setBlocks c (x := { s.chan c with state := .ramping, mute := false }) (k := s.strike c)
    (r := { s.resolver c with ramp := some 0 }) rfl (strikes_eq_put c s) rfl ?_ ?_
  · refine hair.toLive (.inr hst) rfl rfl rfl rfl rfl rfl rfl rfl ?_ rfl
    show (s.resolver c).drive ≤ _
    rw [hzero]
    exact Nat.zero_le _
  · exact h.place.grant hgranted (fun d hd => stateBut_of_ne hd) (stateBut_same _ _ _) rfl rfl rfl

/-- R55, R98: a PAUSED channel takes the grant. -/
theorem channelLaws_takeGrantPaused (h : ChannelLaws s) (hgranted : s.arbiter.engine = .granted c)
    (hst : (s.chan c).state = .paused) : ChannelLaws (takeGrantPaused c s) := by
  have hair := h.air c
  have hlive : (s.chan c).state.live = true := by rw [hst]; rfl
  refine h.setBlocks c (x := { s.chan c with state := .ramping }) (k := s.strike c) (r := s.resolver c) rfl
    (strikes_eq_put c s) (resolvers_eq_put c s) ?_ ?_
  · exact hair.toLive (.inl hlive) rfl rfl rfl rfl (hair.muted.trans (by rw [hlive]; rfl)) rfl rfl rfl hair.driven
      (hair.ramped.trans (by rw [hst]; rfl))
  · exact h.place.grant hgranted (fun d hd => stateBut_of_ne hd) (stateBut_same _ _ _) rfl rfl rfl

theorem channelLaws_handBack (h : ChannelLaws s) (hgranted : s.arbiter.engine = .granted c) :
    ChannelLaws (offerGrant (s.setArbiter { s.arbiter with engine := .free })) := by
  rw [offerGrant_eq]
  exact (channelLaws_iff _).mpr ⟨h.air, h.place.handBack hgranted rfl rfl rfl⟩

/-- R56, R102: a RAMPING channel goes ON. -/
theorem channelLaws_goOn (h : ChannelLaws s) (hst : (s.chan c).state = .ramping) : ChannelLaws (goOn c s) := by
  have hair := h.air c
  have hlive : (s.chan c).state.live = true := by rw [hst]; rfl
  have hmute : (s.chan c).mute = false := hair.muted.trans (by rw [hlive]; rfl)
  rw [goOn_eq]
  refine h.setBlocks c (k := s.strike c) rfl (strikes_eq_put c s) rfl ?_ ?_
  · refine hair.toLive (.inl hlive) rfl rfl rfl rfl hmute rfl rfl rfl ?_ rfl
    rw [if_pos hmute]
    exact Nat.min_le_right _ _
  · have hout := stays_out h.place (by rw [hst]; rfl)
    exact h.place.leave (fun d hd => stateBut_of_ne hd) (by rw [stateBut_same]; rfl) (by rw [stateBut_same]; nofun)
      (fun d => ⟨fun hd => ⟨by rintro rfl; exact hout hd, hd⟩, And.right⟩) h.place.once rfl

/-- R57, R105: a RAMPING channel is preempted. -/
theorem channelLaws_pause (h : ChannelLaws s) (hst : (s.chan c).state = .ramping) : ChannelLaws (pause c s) := by
  have hair := h.air c
  have hlive : (s.chan c).state.live = true := by rw [hst]; rfl
  rw [pause_eq]
  refine h.setBlocks c (x := { s.chan c with state := .paused }) (k := s.strike c) (r := s.resolver c) rfl
    (strikes_eq_put c s) (resolvers_eq_put c s) ?_ ?_
  · exact hair.toLive (.inl hlive) rfl rfl rfl rfl (hair.muted.trans (by rw [hlive]; rfl)) rfl rfl rfl hair.driven
      (hair.ramped.trans (by rw [hst]; rfl))
  · have hout := stays_out h.place (by rw [hst]; rfl)
    have hperm : (s.arbiter.high ++ c :: s.arbiter.low).Perm (c :: (s.arbiter.high ++ s.arbiter.low)) := List.perm_middle
    exact h.place.join (fun d hd => stateBut_of_ne hd) (by rw [stateBut_same]; rfl)
      (fun d => hperm.mem_iff.trans List.mem_cons) (hperm.nodup_iff.mpr (List.nodup_cons.mpr ⟨hout, h.place.once⟩)) rfl

/-! ## Leaving the air (R59, R68, R69, R71) -/

/-- A channel leaves the queue and the engine for a state outside both. -/
theorem PlaceLaw.left (h : PlaceLaw s.arbiter (fun c => (s.chan c).state)) (hwaiting : st.waiting = false)
    (hramping : st ≠ .ramping) : PlaceLaw { s.arbiter with
      high := without c s.arbiter.high, low := without c s.arbiter.low
      engine := grantFrom (releasedBy c s.arbiter.engine) (without c s.arbiter.high) (without c s.arbiter.low) }
      (stateBut s c st) :=
  h.leave (fun d hd => stateBut_of_ne hd) (by rw [stateBut_same]; exact hwaiting) (by rw [stateBut_same]; exact hramping)
    (mem_without_append _ _ c) (without_append_nodup h.once c) rfl

/-- R68, R69: a channel departs to LOCKOUT or INTERLOCKED. -/
theorem channelLaws_departTo (h : ChannelLaws s) (hst : (s.chan c).state ≠ .off) {goal : ChannelState}
    (hgoal : goal = .lockout ∨ goal = .interlocked ∧ (s.chan c).state ≠ .lockout) (awaits : Bool) (rec : Record) :
    ChannelLaws (departTo c goal after awaits rec s) := by
  have hair := h.air c
  obtain ⟨p, hprofiled⟩ := hair.profile hst
  have hout : goal ≠ .off ∧ goal.live = false ∧ goal ≠ .holdoff ∧ goal ≠ .confirmWait ∧ goal.waiting = false
      ∧ goal ≠ .ramping := by
    rcases hgoal with rfl | ⟨rfl, -⟩ <;> decide
  obtain ⟨hoff, hlive, hholdoff, hwait, hwaiting, hramping⟩ := hout
  rw [departTo_eq]
  refine h.setBlocks c rfl rfl rfl ?_ ?_
  case refine_2 => exact h.place.left (st := goal) hwaiting hramping
  refine hprofiled.toMuted rfl rfl rfl rfl hoff hlive rfl rfl rfl (by simp [hwait]) ?_
    (fun _ => ⟨rfl, rfl⟩) (fun k => absurd k hholdoff) (hair.counted p hprofiled.loaded) (fun hlockout => ?_)
  · simp [hair.ended_timer]
  · exact hair.spared p hprofiled.loaded ((hgoal.resolve_left hlockout).2)

theorem channelLaws_takeLockout (h : ChannelLaws s) (e : EntryIx) (capture : Bool) :
    ChannelLaws (takeLockout c e capture after s) := by
  by_cases hst : (s.chan c).state = .off ∨ (s.chan c).state = .lockout
  · rw [takeLockout_of_out e capture after hst]; exact h
  · rw [takeLockout_of_in e capture after hst]
    exact channelLaws_departTo h (fun k => hst (.inl k)) (.inl rfl) _ _

theorem channelLaws_takeOpened (h : ChannelLaws s) : ChannelLaws (takeOpened c after s) := by
  by_cases hst : (s.chan c).state = .off ∨ (s.chan c).state = .lockout ∨ (s.chan c).state = .interlocked
  · rw [takeOpened_of_out after hst]; exact h
  · rw [takeOpened_of_in after hst]
    exact channelLaws_departTo h (fun k => hst (.inl k)) (.inr ⟨rfl, fun k => hst (.inr (.inl k))⟩) _ _

/-- R71, R72: CHANNEL_OFF. -/
theorem channelLaws_takeOff (h : ChannelLaws s) : ChannelLaws (takeOff c s) := by
  have hair := h.air c
  rw [takeOff_eq]
  refine h.setBlocks c rfl rfl rfl (hair.enterOff rfl rfl rfl ⟨rfl, rfl⟩ rfl rfl hair.ended_timer rfl rfl rfl rfl rfl rfl) ?_
  exact h.place.left (st := .off) rfl nofun

/-- R72, R90: RELEASE_LOCKOUT. -/
theorem channelLaws_release (h : ChannelLaws s) (hst : (s.chan c).state = .lockout) :
    ChannelLaws (recordChange c none (enterOff c s)) := by
  have hair := h.air c
  have hmute := hair.mute_of_not_live (by rw [hst]; rfl)
  have hpending := hair.pending_eq_false (by rw [hst]; nofun)
  rw [recordChange_enterOff_eq]
  refine h.setBlocks c rfl rfl rfl (hair.enterOff rfl rfl hmute ⟨rfl, rfl⟩ rfl hpending (hair.timer_eq_none hpending) rfl rfl
    (hair.silent hmute) rfl rfl rfl) ?_
  exact h.place.stay (fun d hd => stateBut_of_ne hd) (by rw [stateBut_same, hst]; rfl) (by rw [stateBut_same, hst]; simp)

/-! ## Strikes (R58 to R62) -/

theorem length_recentStrikes_le (s : State) (c : Channel) (p : Profile) :
    (recentStrikes s c p).length ≤ (s.strike c).times.length := List.length_filter_le _ _

/-- R59: a live strike. -/
theorem channelLaws_liveStrike (h : ChannelLaws s) (cause : Cause) (hlive : (s.chan c).state.live = true) :
    ChannelLaws (liveStrike c cause after s) := by
  have hair := h.air c
  obtain ⟨hoff, hlockout, hholdoff, hwait⟩ := live_or_queued_cases (.inl hlive)
  obtain ⟨p, hprofiled⟩ := hair.profile hoff
  obtain ⟨htimer, hextended⟩ := hair.atRest hholdoff
  have hpending := hair.pending_eq_false hwait
  have hfewer := hair.spared p hprofiled.loaded hlockout
  have hrecent := length_recentStrikes_le s c p
  rw [liveStrike_eq c cause after s p hprofiled.loaded]
  dsimp only
  refine h.setBlocks c rfl rfl rfl ?_ ?_
  · by_cases hlocked : (recentStrikes s c p).length + 1 = p.lockoutThreshold
    · simp only [hlocked, decide_true, if_true]
      exact hprofiled.toMuted rfl rfl rfl rfl nofun rfl rfl rfl rfl (by simp [hpending]) hair.timed
        (fun _ => ⟨htimer, hextended⟩) nofun (by simp; omega) (fun k => absurd rfl k)
    · simp only [hlocked, decide_false, Bool.false_eq_true, if_false]
      exact hprofiled.toMuted rfl rfl rfl rfl nofun rfl rfl rfl rfl (by simp [hpending]) hair.timed
        (fun k => absurd rfl k) (fun _ => rfl) (by simp; omega) (fun _ => by simp; omega)
  · have hout : ∀ b : Bool, (if b = true then ChannelState.lockout else .holdoff).waiting = false
        ∧ (if b = true then ChannelState.lockout else .holdoff) ≠ .ramping := by decide
    obtain ⟨hwaiting, hramping⟩ := hout (decide ((recentStrikes s c p).length + 1 = p.lockoutThreshold))
    exact h.place.left hwaiting hramping

/-- R61: a strike in HOLDOFF starts the timer again. -/
theorem channelLaws_restartHoldoff (h : ChannelLaws s) (hst : (s.chan c).state = .holdoff) (finish : Time) :
    ChannelLaws (s.setChan c { s.chan c with holdoff := some finish, extended := false }) := by
  have hair := h.air c
  refine h.setBlocks c (k := s.strike c) (r := s.resolver c) rfl (strikes_eq_put c s) (resolvers_eq_put c s) ?_ ?_
  · exact { hair with atRest := fun k => absurd hst k, waits := fun _ => rfl }
  · exact h.place.stay (fun d hd => stateBut_of_ne hd) (by rw [stateBut_same]) (by rw [stateBut_same])

theorem channelLaws_takeStrike (h : ChannelLaws s) (cause : Cause) : ChannelLaws (takeStrike c cause after s) := by
  unfold takeStrike
  split
  case h_1 hst | h_2 hst | h_3 hst => exact channelLaws_liveStrike h cause (by rw [hst]; rfl)
  case h_4 hst => exact (channelLaws_restartHoldoff h hst (later s.now (profileOf s c).holdoffTime)).same (ps := [.journal]) (by simp [mutedStrike]) (by simp)
  case h_5 | h_6 => exact h.same (ps := [.journal]) (by simp [mutedStrike]) (by simp)
  case h_7 | h_8 | h_9 => exact h

/-! ## The verdict (R64, R70, R79), answers and the expiry -/

theorem releasedBy_of_not {e : Engine} (h : e ≠ .held c) : releasedBy c e = e := if_neg h

/-- R94: a channel outside the queue and the engine joins the tail of its group. -/
theorem PlaceLaw.queue (h : PlaceLaw s.arbiter (fun c => (s.chan c).state)) (hwaiting : (s.chan c).state.waiting = false)
    (hramping : (s.chan c).state ≠ .ramping) (group : Nat) : PlaceLaw { s.arbiter with
      high := tailIf (decide (group ≠ 1)) c s.arbiter.high, low := tailIf (decide (group = 1)) c s.arbiter.low
      engine := grantFrom s.arbiter.engine (tailIf (decide (group ≠ 1)) c s.arbiter.high)
        (tailIf (decide (group = 1)) c s.arbiter.low) } (stateBut s c .queued) := by
  have hone : decide (group = 1) = !decide (group ≠ 1) := by by_cases hg : group = 1 <;> simp [hg]
  refine h.join (fun d hd => stateBut_of_ne hd) (by rw [stateBut_same]; rfl) (mem_tailIf_append _ _ _ _ hone c)
    (tailIf_append_nodup h.once (stays_out h hwaiting) hone) ?_
  rw [releasedBy_of_not fun hheld => hramping ((h.holds c).mp hheld)]

/-- R64, R70, R79: a verdict on a silent channel that is not in the queue. -/
theorem channelLaws_of_judged {extended : Bool} (h : ChannelLaws s) (hprofile : (s.chan c).profile = some p)
    (hst : (s.chan c).state = .holdoff ∨ (s.chan c).state = .interlocked) (hothers : OtherChannels c s t)
    (hchan : t.chan c = { s.chan c with state := (t.chan c).state, holdoff := none, extended := false })
    (hresolver : t.resolver c = s.resolver c) (hjudged : Judged s t c p extended after) : ChannelLaws t := by
  have hair := h.air c
  have hout : (s.chan c).state ≠ .off ∧ (s.chan c).state.live = false ∧ (s.chan c).state ≠ .lockout
      ∧ (s.chan c).state ≠ .confirmWait ∧ (s.chan c).state.waiting = false ∧ (s.chan c).state ≠ .ramping := by
    rcases hst with hst | hst <;> rw [hst] <;> decide
  obtain ⟨hoff, hlive, hlockout, hwait, hwaiting, hramping⟩ := hout
  obtain ⟨q, hprofiled⟩ := hair.profile hoff
  obtain rfl : q = p := Option.some.inj (hprofiled.loaded.symm.trans hprofile)
  have hmute := hair.mute_of_not_live hlive
  have hfewer := Nat.lt_of_le_of_lt (length_recentStrikes_le s c q) (hair.spared q hprofile hlockout)
  have hpending := hair.pending_eq_false hwait
  have hstates : (fun d => (t.chan d).state) = stateBut s c (t.chan c).state := by
    funext d
    by_cases hd : d = c
    · rw [hd, stateBut_same]
    · rw [stateBut_of_ne hd, (hothers d hd).1]
  have hkept : Profiled q (t.chan c) (t.resolver c) :=
    hprofiled.congr (by rw [hchan]) (by rw [hresolver]) (by rw [hresolver]) (by rw [hresolver])
  have hmute' : (t.chan c).mute = true := by rw [hchan]; exact hmute
  have hdrive : (t.resolver c).drive = 0 := by rw [hresolver]; exact hair.silent hmute
  have hramp : (t.resolver c).ramp = none := by rw [hresolver]; exact hair.ramp_of_not_live hlive
  have hholdoff : (t.chan c).holdoff = none ∧ (t.chan c).extended = false := by rw [hchan]; exact ⟨rfl, rfl⟩
  refine h.change c (fun d hd => (hothers d hd).1) (fun d hd => (hothers d hd).2.1) (fun d hd => (hothers d hd).2.2.1) ?_ ?_
  · by_cases hask : q.confirmThreshold ≠ 0 ∧ q.confirmThreshold ≤ (recentStrikes s c q).length
    · obtain ⟨hstate, -, hstrike, -⟩ := hjudged.asked hask.1 hask.2
      refine hkept.toMuted rfl rfl rfl rfl ?_ ?_ hmute' hdrive hramp ?_ ?_ (fun _ => hholdoff) ?_ ?_ (fun _ => ?_)
      all_goals simp [hstate, hstrike, ChannelState.live]
      · exact Nat.le_of_lt hfewer
      · exact hfewer
    · obtain ⟨hstate, hstrike, -⟩ := hjudged.queued (by omega)
      refine hkept.toMuted rfl rfl rfl rfl ?_ ?_ hmute' hdrive hramp ?_ ?_ (fun _ => hholdoff) ?_ ?_ (fun _ => ?_)
      all_goals simp [hstate, hstrike, ChannelState.live, hpending]
      · exact hair.timer_eq_none hpending
      · exact Nat.le_of_lt hfewer
      · exact hfewer
  · rw [hstates]
    by_cases hask : q.confirmThreshold ≠ 0 ∧ q.confirmThreshold ≤ (recentStrikes s c q).length
    · obtain ⟨hstate, harbiter, -⟩ := hjudged.asked hask.1 hask.2
      rw [harbiter, hstate]
      exact h.place.stay (fun d hd => stateBut_of_ne hd) (by rw [stateBut_same, hwaiting]; rfl)
        (by rw [stateBut_same]; simp [hramping])
    · obtain ⟨hstate, -, -, harbiter, -⟩ := hjudged.queued (by omega)
      rw [harbiter, hstate]
      exact h.place.queue hwaiting hramping q.group

theorem channelLaws_endHoldoff (h : ChannelLaws s) (hst : (s.chan c).state = .holdoff) :
    ChannelLaws (endHoldoff c after s) := by
  obtain ⟨p, hprofiled⟩ := (h.air c).profile (by rw [hst]; nofun)
  obtain ⟨hframe, hothers, hchan, -, hjudged⟩ := endHoldoff_spec (after := after) hprofiled.loaded
  exact channelLaws_of_judged h hprofiled.loaded (.inl hst) hothers hchan (by rw [hframe]; rfl) hjudged

theorem channelLaws_takeClosed (h : ChannelLaws s) : ChannelLaws (takeClosed c after s) := by
  by_cases hst : (s.chan c).state = .interlocked
  · obtain ⟨p, hprofiled⟩ := (h.air c).profile (by rw [hst]; nofun)
    obtain ⟨-, hothers, hchan, hresolver, -⟩ := verdict_frame c false after s
    obtain ⟨hholdoff, hextended⟩ := (h.air c).atRest (by rw [hst]; nofun)
    rw [takeClosed_of after hst]
    refine channelLaws_of_judged h hprofiled.loaded (.inr hst) hothers ?_ hresolver
      (verdict_judged c false after s p hprofiled.loaded)
    exact hchan.trans (by simp only [hholdoff, hextended])
  · rw [takeClosed_of_not after hst]; exact h

theorem channelLaws_askAgain (h : ChannelLaws s) : ChannelLaws (askAgain c after s) := by
  by_cases hask : mayAskAgain c s
  · rw [askAgain_of after hask]; exact channelLaws_endHoldoff h hask.1
  · rw [askAgain_of_not after hask]; exact h

/-- R65: the holdoff is held past its expiry. -/
theorem channelLaws_extendHoldoff (h : ChannelLaws s) (hst : (s.chan c).state = .holdoff) :
    ChannelLaws (extendHoldoff c s) := by
  have hair := h.air c
  refine h.setBlocks c (x := { s.chan c with holdoff := none, extended := true }) (k := s.strike c) (r := s.resolver c) rfl
    (strikes_eq_put c s) (resolvers_eq_put c s) ?_ ?_
  · exact { hair with atRest := fun k => absurd hst k, waits := fun _ => rfl }
  · exact h.place.stay (fun d hd => stateBut_of_ne hd) (by rw [stateBut_same]) (by rw [stateBut_same])

/-- R84 to R86: a confirmation ends with the channel in QUEUED or LOCKOUT. -/
theorem AirLaw.answered (h : AirLaw x k r) (hst : x.state = .confirmWait) {goal : ChannelState}
    (hgoal : goal = .queued ∨ goal = .lockout) :
    AirLaw { x with state := goal } { k with pending := false, timer := none } r := by
  obtain ⟨p, hprofiled⟩ := h.profile (by rw [hst]; nofun)
  have hlive : x.state.live = false := by rw [hst]; rfl
  have hmute := h.mute_of_not_live hlive
  have hout : goal ≠ .off ∧ goal.live = false ∧ goal ≠ .confirmWait ∧ goal ≠ .holdoff := by
    rcases hgoal with rfl | rfl <;> decide
  obtain ⟨hoff, hmuted, hwait, hholdoff⟩ := hout
  exact hprofiled.toMuted rfl rfl rfl rfl hoff hmuted hmute (h.silent hmute) (h.ramp_of_not_live hlive) (by simp [hwait]) rfl
    (fun _ => h.atRest (by rw [hst]; nofun)) (fun k => absurd k hholdoff) (h.counted p hprofiled.loaded)
    (fun _ => h.spared p hprofiled.loaded (by rw [hst]; nofun))

theorem channelLaws_answer (h : ChannelLaws s) (hpending : (s.strike c).pending = true) (accept : Bool) :
    ChannelLaws (if accept then acceptAnswer c s else declineAnswer c s) := by
  have hst := (h.air c).asked.mp hpending
  rw [answer_eq accept hpending]
  refine h.setBlocks c (r := s.resolver c) rfl rfl (resolvers_eq_put c s) ((h.air c).answered hst ?_) ?_
  · cases accept
    · exact .inr rfl
    · exact .inl rfl
  · cases accept
    · exact h.place.stay (fun d hd => stateBut_of_ne hd) (by rw [stateBut_same, hst]; rfl) (by simp [stateBut_same, hst])
    · exact h.place.queue (by rw [hst]; rfl) (by rw [hst]; nofun) _

theorem channelLaws_expireConfirmation (h : ChannelLaws s) (hpending : (s.strike c).pending = true) :
    ChannelLaws (expireConfirmation c s) := by
  have hst := (h.air c).asked.mp hpending
  have hended := endConfirmation_eq c s
  rw [if_pos hpending] at hended
  unfold expireConfirmation
  rw [hended]
  refine h.setBlocks c (x := { s.chan c with state := .lockout }) (k := { s.strike c with pending := false, timer := none })
    (r := s.resolver c) rfl rfl (resolvers_eq_put c s) ((h.air c).answered hst (.inr rfl)) ?_
  exact h.place.stay (fun d hd => stateBut_of_ne hd) (by rw [stateBut_same, hst]; rfl) (by simp [stateBut_same, hst])

/-- R53, R54: CHANNEL_ON. -/
theorem channelLaws_takeOn (h : ChannelLaws s) (target : Nat) (hprofile : (s.chan c).profile ≠ none)
    (hst : (s.chan c).state = .off) : ChannelLaws (takeOn c target s) := by
  have hair := h.air c
  obtain ⟨p, hp⟩ := Option.ne_none_iff_exists'.mp hprofile
  have hlive : (s.chan c).state.live = false := by rw [hst]; rfl
  have hmute := hair.mute_of_not_live hlive
  have hpending := hair.pending_eq_false (by rw [hst]; nofun)
  have hspared := hair.spared p hp (by rw [hst]; nofun)
  obtain ⟨-, hpositions⟩ := hair.limited (by rw [hp]; rfl)
  rw [takeOn_eq target hp]
  refine h.setBlocks c (k := s.strike c) rfl (strikes_eq_put c s) rfl ?_ (h.place.queue (by rw [hst]; rfl) (by rw [hst]; nofun) _)
  have hprofiled : Profiled p (s.chan c) { s.resolver c with target := some target } :=
    ⟨hp, hair.profiled p hp, ⟨rfl, hpositions⟩, fun level => hair.floored p level hp⟩
  exact hprofiled.toMuted rfl rfl rfl rfl nofun rfl hmute (hair.silent hmute) (hair.ramp_of_not_live hlive)
    (by simp [hpending]) hair.timed (fun _ => hair.atRest (by rw [hst]; nofun)) nofun (Nat.le_of_lt hspared) (fun _ => hspared)

/-! ## The time counter (R77) -/

theorem channelLaws_wrapCounter (h : ChannelLaws s) : ChannelLaws (wrapCounter s) := by
  have hkept : SameBut [.now, .strikes] s (wrapCounter s) := by simp
  have hchans : (wrapCounter s).chans = s.chans := hkept .chans (by simp)
  have hresolvers : (wrapCounter s).resolvers = s.resolvers := hkept.resolvers (by simp) (by simp)
  have harbiter : (wrapCounter s).arbiter = s.arbiter := hkept .arbiter (by simp)
  have hchan : ∀ d, (wrapCounter s).chan d = s.chan d := fun d => by rw [State.chan, hchans]; rfl
  refine (channelLaws_iff _).mpr ⟨fun d => ?_, ?_⟩
  · rw [hchan, State.resolver, hresolvers, wrapCounter_strike]
    exact (h.air d).setTimes (List.length_filter_le _ _)
  · simp only [harbiter, hchan]
    exact h.place

/-! ## The Drive Resolver -/

/-- The levels of one channel change, and its links. -/
theorem channelLaws_setLevels (h : ChannelLaws s) (hair : AirLaw (s.chan c) (s.strike c) r)
    (hchans : t.chans = s.chans) (hstrikes : t.strikes = s.strikes) (hresolvers : t.resolvers = put s.resolvers c r)
    (hhigh : t.arbiter.high = s.arbiter.high) (hlow : t.arbiter.low = s.arbiter.low)
    (hengine : t.arbiter.engine = s.arbiter.engine) : ChannelLaws t := by
  refine h.setBlocks c (x := s.chan c) (by rw [hchans]; exact (put_look _ _).symm)
    (by rw [hstrikes]; exact strikes_eq_put c s) hresolvers hair ?_
  exact (h.place.stay (fun d hd => stateBut_of_ne hd) (by rw [stateBut_same]) (by rw [stateBut_same])).congr hhigh hlow hengine

/-- R112, R114, R115: an entry other than RAMP and FOLDBACK changes. -/
theorem channelLaws_changeEntry (h : ChannelLaws s) (hdrive : r.drive = (s.resolver c).drive)
    (hramp : r.ramp = (s.resolver c).ramp) (hfoldback : r.foldback = (s.resolver c).foldback)
    (hmarks : r.floorMarks = (s.resolver c).floorMarks)
    (hlimited : (s.chan c).profile.isSome = true → r.target.isSome = true ∧ r.positions.isSome = true) :
    ChannelLaws (changeEntry c r s) := by
  by_cases hsame : r = s.resolver c
  · rw [changeEntry, if_pos hsame]; exact h
  · rw [changeEntry_eq_set hsame]
    have hair := h.air c
    refine channelLaws_setLevels h ?_ rfl rfl rfl rfl rfl rfl
    refine hair.setLevels (fun hmute => ?_) ?_ ?_ hlimited (fun hoff => ?_) (fun p level hp => ?_)
    · simp [hmute, hdrive, hair.silent hmute]
    · show (if (s.chan c).mute = false then min r.drive r.resolved else r.drive) ≤ r.resolved
      split
      · exact Nat.min_le_right _ _
      · next hmute => rw [hdrive, hair.silent (by simpa using hmute)]; exact Nat.zero_le _
    · show r.ramp.isSome = _
      rw [hramp]
    · show r.foldback = none ∧ r.floorMarks = 0
      rw [hfoldback, hmarks]
      exact (hair.cleared hoff).2
    · show r.foldback = some level → _
      rw [hfoldback]
      exact hair.floored p level hp

/-- R117 to R119: the FOLDBACK entry after a mark. -/
theorem foldedBy_floored (hchecked : checkProfile p = none)
    (hfloored : ∀ level, r.foldback = some level → p.foldbackFloor ≤ level ∧ level ≤ 1000) (st : ChannelState) :
    ∀ level, (foldedBy p st r).foldback = some level → p.foldbackFloor ≤ level ∧ level ≤ 1000 := by
  have hfloor : p.foldbackFloor ≤ 1000 := by
    have hspec := checkProfile_spec p
    rw [hchecked] at hspec
    exact hspec 20 (by decide) (by decide)
  by_cases hoff : st = .off
  · subst hoff; exact hfloored
  · by_cases hset : r.activeSet = []
    · obtain ⟨hnone, hsome⟩ := foldedBy_recovering (p := p) (r := r) (hoff := hoff) (hset := hset)
      cases hf : r.foldback with
      | none => rw [hnone hf]; exact hfloored
      | some old =>
        obtain ⟨hlow, -⟩ := hfloored old hf
        intro level hlevel
        rw [(hsome old hf).2] at hlevel
        split at hlevel
        · cases hlevel
        · have := Option.some.inj hlevel; omega
    · intro level hlevel
      rw [(foldedBy_folding (p := p) (r := r) (hoff := hoff) (hset := hset)).1] at hlevel
      have hlevel := Option.some.inj hlevel
      have hold : r.foldback.getD 1000 ≤ 1000 := by
        cases hf : r.foldback with
        | none => simp
        | some old => exact (hfloored old hf).2
      omega

theorem markedBy_others (p : Profile) (due : Bool) (st : ChannelState) (r : DriveResolver) :
    (markedBy p due st r).target = r.target ∧ (markedBy p due st r).positions = r.positions
    ∧ (markedBy p due st r).ramp.isSome = r.ramp.isSome := by
  obtain ⟨htarget, hpositions, -, hramp⟩ := foldedBy_others (p := p) (st := st) (r := rampedBy p due r)
  unfold markedBy
  rw [htarget, hpositions, hramp]
  unfold rampedBy
  split <;> simp

/-- R121: the work of a mark. -/
theorem channelLaws_markWork (h : ChannelLaws s) : ChannelLaws (markWork c s) := by
  have hair := h.air c
  rw [markWork_eq c s _ _ _ _ rfl rfl rfl rfl]
  obtain ⟨htarget, hpositions, hramp⟩ := markedBy_others (profileOf s c) (stepDue c s) (s.chan c).state (s.resolver c)
  have hfloored : ∀ p level, (s.chan c).profile = some p →
      (markedBy (profileOf s c) (stepDue c s) (s.chan c).state (s.resolver c)).foldback = some level →
      p.foldbackFloor ≤ level ∧ level ≤ 1000 := fun p level hp => by
    rw [profileOf_of_some hp]
    exact foldedBy_floored (r := rampedBy p (stepDue c s) (s.resolver c)) (hair.profiled p hp)
      (fun old hold => hair.floored p old hp hold) _ level
  have hcleared : (s.chan c).state = .off →
      (markedBy (profileOf s c) (stepDue c s) (s.chan c).state (s.resolver c)).foldback = none
      ∧ (markedBy (profileOf s c) (stepDue c s) (s.chan c).state (s.resolver c)).floorMarks = 0 := fun hoff => by
    rw [hoff]
    exact (hair.cleared hoff).2
  generalize markedBy (profileOf s c) (stepDue c s) (s.chan c).state (s.resolver c) = r at *
  refine channelLaws_setLevels h ?_ rfl rfl rfl ?_ ?_ (steppedBy_engine _ _ _)
  · refine hair.setLevels (fun hmute => ?_) ?_ hramp (fun hp => ?_) hcleared hfloored
    · simp [hmute, hair.silent hmute]
    · show (if (s.chan c).mute = true then (s.resolver c).drive else r.resolved) ≤ r.resolved
      split
      · next hmute => rw [hair.silent hmute]; exact Nat.zero_le _
      · exact Nat.le_refl _
    · show r.target.isSome = true ∧ r.positions.isSome = true
      rw [htarget, hpositions]
      exact hair.limited hp
  · show (steppedBy _ _ s.arbiter).high = _
    unfold steppedBy; split <;> rfl
  · show (steppedBy _ _ s.arbiter).low = _
    unfold steppedBy; split <;> rfl

/-! ## A profile loaded (R51, R52) -/

theorem channelLaws_installProfile (h : ChannelLaws s) (hst : (s.chan c).state = .off) (hchecked : checkProfile p = none) :
    ChannelLaws (installProfile c p s) := by
  have hair := h.air c
  rw [installProfile_eq]
  obtain ⟨hframe, -, -, -⟩ := recheckedBy_slots c p s
  generalize recheckedBy c p s = u at *
  have hlive : (s.chan c).state.live = false := by rw [hst]; rfl
  have hmute := hair.mute_of_not_live hlive
  obtain ⟨htimes, hfoldback, hmarks⟩ := hair.cleared hst
  have hpending := hair.pending_eq_false (by rw [hst]; nofun)
  have hloaded : AirLaw { s.chan c with profile := some p } (s.strike c)
      { s.resolver c with target := some 0, positions := some (ceilingFor p (activeCount u c)) } :=
    { hair with
      driven := by rw [show (s.resolver c).drive = 0 from hair.silent hmute]; exact Nat.zero_le _
      unprofiled := nofun
      profiled := fun q hq => Option.some.inj hq ▸ hchecked
      limited := fun _ => ⟨rfl, rfl⟩
      counted := fun _ _ => by rw [htimes]; exact Nat.zero_le _
      spared := fun q hq _ => by rw [htimes, ← Option.some.inj hq]; exact one_le_lockoutThreshold hchecked
      floored := fun _ level _ hlevel => by rw [show (s.resolver c).foldback = none from hfoldback] at hlevel; cases hlevel }
  exact h.setBlocks c (k := s.strike c) (by rw [hframe]; rfl) (by rw [hframe]; exact strikes_eq_put c s) (by rw [hframe]; rfl)
    hloaded (by rw [hframe]; exact h.place.stay (fun d hd => stateBut_of_ne hd) (by rw [stateBut_same]) (by rw [stateBut_same]))

end Sys2Proof.Machine


/-! Every step keeps the laws of the channels (R49, R72, R75, R80, R94, R98, R110, R112), and with them the law of the
site interlock (R69). -/

namespace Sys2Proof.Machine

variable {s t : State} {c d : Channel} {p : Profile} {a : Arguments} {after : Option Stamp}

/-! ## The channels and the Arbiter -/

theorem channelLaws_setTarget (h : ChannelLaws s) : ChannelLaws (setTarget a s).1 :=
  setTarget_keeps h fun c _ _ => channelLaws_changeEntry h rfl rfl rfl rfl fun hp =>
    ⟨rfl, ((h.air c).limited hp).2⟩

theorem channelLaws_channelOn (h : ChannelLaws s) : ChannelLaws (channelOn a s).1 :=
  channelOn_keeps h fun c target hfree => by
    obtain ⟨hprofile, hst, -⟩ := channelOnRefusal_eq_none hfree
    exact channelLaws_takeOn h target hprofile hst

theorem exec_leads_channelLaws (cmd : Instr) (hvisit : cmd ≠ .slotVisit) (h : ChannelLaws s) :
    Leads ChannelLaws (exec cmd s) := by
  cases cmd with
  | powerOnReset _ _ | controllerReset _ _ | backplaneResetRelease _ | supplyLoss =>
    exact reads_channelLaws.leads_of_isReset channelLaws_reset (by simp [Part.Same, State.resolver]) rfl h
  | slotVisit => exact absurd rfl hvisit
  | loadProfile =>
    exact leads_next.mpr (reads_channelLaws.keep_visitFor (by simp) _
      (fun _ _ hu => loadProfile_keeps hu fun _ _ => channelLaws_installProfile hu) h)
  | channelOn =>
    exact leads_next.mpr (reads_channelLaws.keep_visitFor (by simp) _ (fun _ _ => channelLaws_channelOn) h)
  | channelOff =>
    exact leads_next.mpr (reads_channelLaws.keep_visitFor (by simp) _
      (fun _ _ hu => channelOff_keeps hu fun _ _ _ => channelLaws_takeOff hu) h)
  | setTarget =>
    exact leads_next.mpr (reads_channelLaws.keep_visitFor (by simp) _ (fun _ _ => channelLaws_setTarget) h)
  | confirmRestrike =>
    exact leads_next.mpr (reads_channelLaws.keep_visitFor (by simp) _
      (fun _ _ hu => confirmRestrike_keeps hu fun _ => channelLaws_answer hu) h)
  | releaseLockout =>
    exact leads_next.mpr (reads_channelLaws.keep_visitFor (by simp) _
      (fun _ _ hu => releaseLockout_keeps hu fun _ => channelLaws_release hu) h)
  | grantTaken c =>
    exact leads_grantTaken h (channelLaws_takeGrantQueued h) (channelLaws_takeGrantPaused h) (channelLaws_handBack h)
  | rampCompletion c =>
    exact leads_rampCompletion h (fun _ => h.setLink _) (fun _ hst => channelLaws_goOn (h.setLink _) hst)
  | preemption c =>
    exact leads_preemption h (fun _ => h.setLink _) (fun _ _ hst _ _ => channelLaws_pause (h.setLink _) hst)
  | stepReport c =>
    exact leads_stepReport h fun left sent _ => (channelLaws_iff _).mpr ⟨h.air, h.place.congr rfl rfl rfl⟩
  | strike c link => exact leads_strike h fun cause _ left _ => channelLaws_takeStrike (h.setLink left) cause
  | lockoutAction c => exact leads_lockoutAction h fun e capture _ left _ => channelLaws_takeLockout (h.setLink left) e capture
  | conditionClearedEvent c => exact leads_conditionClearedEvent h fun _ left _ => channelLaws_askAgain (h.setLink left)
  | arcCleared c => exact leads_arcCleared h fun _ left _ => channelLaws_askAgain (h.setLink left)
  | interlockOpenedEvent c => exact leads_interlockOpenedEvent h fun _ left _ => channelLaws_takeOpened (h.setLink left)
  | interlockClosedEvent c => exact leads_interlockClosedEvent h fun _ left _ => channelLaws_takeClosed (h.setLink left)
  | holdoffExpiry c =>
    exact leads_holdoffExpiry h fun _ _ hst => ⟨channelLaws_extendHoldoff h hst, channelLaws_endHoldoff h hst⟩
  | confirmationExpiry c => exact leads_confirmationExpiry h (channelLaws_expireConfirmation h)
  | timeCounterWrap => exact leads_ite_next (fun _ => channelLaws_wrapCounter h) h
  | timeCounterTick =>
    exact leads_timeCounterTick h (reads_channelLaws _ _ (by simp [Part.Same, State.resolver]) h) (channelLaws_wrapCounter h)
  | frameMark c => exact leads_frameMark h fun _ => channelLaws_markWork (h.setLink _)
  | positionCount c =>
    exact leads_positionCount h (fun _ _ _ _ => h.setLink _) fun _ _ _ _ _ =>
      channelLaws_changeEntry (h.setLink _) rfl rfl rfl rfl fun hp => ⟨((h.air c).limited hp).1, rfl⟩
  | _ => exact fun t ht => reads_channelLaws.keep_exec ht (by simp [footprint]) h

/-- Settles O56: by what each command does to a channel's own blocks, and to the queue and the engine. -/
theorem stepKeepsChannelLaws : Obligations.StepKeepsChannelLaws := fun s t h ht =>
  reads_channelLaws.keep_step (by simp) (fun cmd _ t hcmd hs => exec_leads_channelLaws cmd hcmd hs t) s t h ht

end Sys2Proof.Machine


/-! The law of the site interlock (R69): kept by every step. -/

namespace Sys2Proof.Machine

variable {s t : State} {c d : Channel} {p : Profile} {x : ChannelController} {after : Option Stamp}
  {left : ChannelLinks}

/-! ## What keeps the law -/

/-- The states in which an opening leaves a channel (R69). -/
def OutOfAir (st : ChannelState) : Prop := st = .off ∨ st = .lockout ∨ st = .interlocked

theorem interlockEvents_congr {l l' : ChannelLinks} (h : l'.fromScanner = l.fromScanner) :
    interlockEvents l' = interlockEvents l := by rw [interlockEvents, h]; rfl

/-- A change that brings no channel on air, and no interlock event. -/
theorem InterlockLaw.keep (h : InterlockLaw s) (hclosed : t.scanner.interlockClosed = s.scanner.interlockClosed)
    (hevents : ∀ d, interlockEvents (t.link d) = interlockEvents (s.link d))
    (hstates : ∀ d, OutOfAir (s.chan d).state → OutOfAir (t.chan d).state) : InterlockLaw t := fun hopen d => by
  obtain ⟨hlast, hout⟩ := h (hclosed.symm.trans hopen) d
  rw [hevents d]
  exact ⟨hlast, fun hnone => hstates d (hout hnone)⟩

/-- One channel's state changes. -/
theorem InterlockLaw.setChan (h : InterlockLaw s) (c : Channel) (hchans : t.chans = put s.chans c x)
    (hscanner : t.scanner = s.scanner) (hlinks : t.links = s.links)
    (hstate : OutOfAir (s.chan c).state → OutOfAir x.state) : InterlockLaw t := by
  refine h.keep (by rw [hscanner]) (fun d => by rw [State.link, hlinks]; rfl) (fun d hd => ?_)
  rw [State.chan, hchans, look_put]
  split
  · next hdc => exact hstate (hdc ▸ hd)
  · exact hd

/-- A change of one channel, not described by its record. -/
theorem InterlockLaw.change (h : InterlockLaw s) (c : Channel) (hothers : ∀ d, d ≠ c → t.chan d = s.chan d)
    (hscanner : t.scanner = s.scanner) (hlinks : t.links = s.links) (hstate : ¬ OutOfAir (s.chan c).state) :
    InterlockLaw t := by
  refine h.keep (by rw [hscanner]) (fun d => by rw [State.link, hlinks]; rfl) (fun d hd => ?_)
  by_cases hdc : d = c
  · exact absurd (hdc ▸ hd) hstate
  · rw [hothers d hdc]; exact hd

theorem InterlockLaw.setLink (h : InterlockLaw s) (hleft : interlockEvents left = interlockEvents (s.link c)) :
    InterlockLaw (s.setLink c left) := by
  refine h.keep rfl (fun d => ?_) (fun _ => id)
  by_cases hd : d = c
  · subst hd; rw [State.setLink_link_same, hleft]
  · rw [State.setLink_link_ne _ _ _ _ hd]

theorem InterlockLaw.same {ps : List Part} (h : InterlockLaw s) (hsame : SameBut ps s t)
    (hdisjoint : ∀ p ∈ [Part.interlock, .fromScanner, .chans], p ∉ ps) : InterlockLaw t :=
  reads_interlockLaw.keep hsame hdisjoint h

theorem interlockLaw_of_closed (h : t.scanner.interlockClosed = true) : InterlockLaw t := fun hopen => by
  rw [h] at hopen; cases hopen

/-! ## Events of a channel on air -/

theorem interlockLaw_liveStrike (h : InterlockLaw s) (hp : (s.chan c).profile = some p) (cause : Cause)
    (hst : ¬ OutOfAir (s.chan c).state) : InterlockLaw (liveStrike c cause after s) := by
  rw [liveStrike_eq c cause after s p hp]
  exact h.setChan c rfl rfl rfl fun hout => absurd hout hst

theorem interlockLaw_takeStrike (hlaws : ChannelLaws s) (h : InterlockLaw s) (cause : Cause) :
    InterlockLaw (takeStrike c cause after s) := by
  have hlive : (s.chan c).state.live = true → InterlockLaw (liveStrike c cause after s) := fun hlive => by
    obtain ⟨p, hp⟩ := (hlaws.air c).profile (live_or_queued_cases (.inl hlive)).1
    refine interlockLaw_liveStrike h hp.loaded cause ?_
    rintro (hst | hst | hst) <;> rw [hst] at hlive <;> cases hlive
  unfold takeStrike
  split
  case h_1 hst | h_2 hst | h_3 hst => exact hlive (by rw [hst]; rfl)
  case h_4 hst =>
    have hrestarted : InterlockLaw (s.setChan c { s.chan c with
        holdoff := some (later s.now (profileOf s c).holdoffTime), extended := false }) := h.setChan c rfl rfl rfl id
    exact hrestarted.same (ps := [.journal]) (by simp [mutedStrike]) (by simp)
  case h_5 | h_6 => exact h.same (ps := [.journal]) (by simp [mutedStrike]) (by simp)
  case h_7 | h_8 | h_9 => exact h

theorem interlockLaw_departTo (h : InterlockLaw s) {goal : ChannelState} (hgoal : OutOfAir goal) (awaits : Bool)
    (rec : Record) : InterlockLaw (departTo c goal after awaits rec s) := by
  rw [departTo_eq]
  exact h.setChan c rfl rfl rfl fun _ => hgoal

theorem interlockLaw_takeLockout (h : InterlockLaw s) (e : EntryIx) (capture : Bool) :
    InterlockLaw (takeLockout c e capture after s) := by
  by_cases hst : (s.chan c).state = .off ∨ (s.chan c).state = .lockout
  · rw [takeLockout_of_out e capture after hst]; exact h
  · rw [takeLockout_of_in e capture after hst]; exact interlockLaw_departTo h (.inr (.inl rfl)) _ _

theorem interlockLaw_takeOff (h : InterlockLaw s) : InterlockLaw (takeOff c s) := by
  rw [takeOff_eq]
  exact h.setChan c rfl rfl rfl fun _ => .inl rfl

theorem interlockLaw_release (h : InterlockLaw s) : InterlockLaw (recordChange c none (enterOff c s)) := by
  rw [recordChange_enterOff_eq]
  exact h.setChan c rfl rfl rfl fun _ => .inl rfl

theorem not_outOfAir_of_ne {st : ChannelState} (hoff : st ≠ .off) (hlockout : st ≠ .lockout)
    (hinterlocked : st ≠ .interlocked) : ¬ OutOfAir st := by
  rintro (k | k | k)
  · exact hoff k
  · exact hlockout k
  · exact hinterlocked k

theorem interlockLaw_endHoldoff (h : InterlockLaw s) (hst : (s.chan c).state = .holdoff) :
    InterlockLaw (endHoldoff c after s) := by
  obtain ⟨hframe, hothers, -⟩ := verdict_frame c (s.chan c).extended after (stopHoldoff c s)
  have hout : ¬ OutOfAir (s.chan c).state := by rw [hst]; exact not_outOfAir_of_ne nofun nofun nofun
  refine h.change c (fun d hd => ?_) ?_ ?_ hout
  · exact (hothers d hd).1.trans (State.setChan_chan_ne _ _ _ _ hd)
  · rw [endHoldoff, hframe]; rfl
  · rw [endHoldoff, hframe]; rfl

theorem interlockLaw_askAgain (h : InterlockLaw s) : InterlockLaw (askAgain c after s) := by
  by_cases hask : mayAskAgain c s
  · rw [askAgain_of after hask]; exact interlockLaw_endHoldoff h hask.1
  · rw [askAgain_of_not after hask]; exact h

theorem interlockLaw_answer (hlaws : ChannelLaws s) (h : InterlockLaw s) (hpending : (s.strike c).pending = true)
    (accept : Bool) : InterlockLaw (if accept then acceptAnswer c s else declineAnswer c s) := by
  have hst := (hlaws.air c).asked.mp hpending
  have hout : ¬ OutOfAir (s.chan c).state := by rw [hst]; exact not_outOfAir_of_ne nofun nofun nofun
  rw [answer_eq accept hpending]
  exact h.setChan c rfl rfl rfl fun k => absurd k hout

theorem interlockLaw_expireConfirmation (h : InterlockLaw s) : InterlockLaw (expireConfirmation c s) := by
  unfold expireConfirmation
  rw [endConfirmation_eq]
  exact h.setChan c (x := { s.chan c with state := .lockout }) rfl rfl rfl fun _ => .inr (.inl rfl)

theorem interlockLaw_takeGrant (h : InterlockLaw s) :
    ((s.chan c).state = .queued → InterlockLaw (takeGrantQueued c s))
    ∧ ((s.chan c).state = .paused → InterlockLaw (takeGrantPaused c s)) := by
  refine ⟨fun hst => ?_, fun hst => ?_⟩
  · exact h.setChan c (x := { s.chan c with state := .ramping, mute := false }) rfl rfl rfl fun k => by
      rw [hst] at k; rcases k with k | k | k <;> cases k
  · exact h.setChan c (x := { s.chan c with state := .ramping }) rfl rfl rfl fun k => by
      rw [hst] at k; rcases k with k | k | k <;> cases k

theorem interlockLaw_fromRamping (h : InterlockLaw s) (hst : (s.chan c).state = .ramping) :
    InterlockLaw (goOn c s) ∧ InterlockLaw (pause c s) := by
  have hout : ¬ OutOfAir (s.chan c).state := by rw [hst]; exact not_outOfAir_of_ne nofun nofun nofun
  rw [goOn_eq, pause_eq]
  exact ⟨h.setChan c rfl rfl rfl fun k => absurd k hout, h.setChan c rfl rfl rfl fun k => absurd k hout⟩

theorem interlockLaw_installProfile (h : InterlockLaw s) : InterlockLaw (installProfile c p s) := by
  rw [installProfile_eq]
  obtain ⟨hframe, -⟩ := recheckedBy_slots c p s
  generalize recheckedBy c p s = u at *
  have hinstalled : InterlockLaw u :=
    h.setChan c (x := { s.chan c with profile := some p }) (by rw [hframe]; rfl) (by rw [hframe]; rfl) (by rw [hframe]; rfl) id
  have hlink : s.link c = u.link c := by rw [hframe]; rfl
  have hlinked : InterlockLaw (u.setLink c { s.link c with
      counts := (s.link c).counts ++ [activeCount u c] }) := hinstalled.setLink (interlockEvents_congr (by rw [hlink]))
  exact hlinked.keep rfl (fun _ => rfl) (fun _ => id)

/-! ## Interlock events taken -/

/-- R69: with its opened event taken, the channel is out of the air. -/
theorem interlockLaw_takeOpened (h : InterlockLaw s)
    (hleft : interlockEvents (s.link c) = true :: interlockEvents left) :
    InterlockLaw (takeOpened c after (s.setLink c left)) := by
  have hshape : ∃ y : ChannelController, OutOfAir y.state
      ∧ (takeOpened c after (s.setLink c left)).chans = put s.chans c y
      ∧ (takeOpened c after (s.setLink c left)).scanner = s.scanner
      ∧ (takeOpened c after (s.setLink c left)).links = put s.links c left := by
    by_cases hst : OutOfAir (s.chan c).state
    · rw [takeOpened_of_out (s := s.setLink c left) after hst]
      exact ⟨s.chan c, hst, (put_look _ _).symm, rfl, rfl⟩
    · rw [takeOpened_of_in (s := s.setLink c left) after hst, departTo_eq]
      exact ⟨_, .inr (.inr rfl), rfl, rfl, rfl⟩
  obtain ⟨y, hy, hchans, hscanner, hlinks⟩ := hshape
  intro hopen d
  obtain ⟨hlast, hout⟩ := h (hscanner ▸ hopen) d
  rw [State.chan, hchans, State.link, hlinks, look_put, look_put]
  by_cases hd : d = c
  · subst hd
    rw [if_pos rfl, if_pos rfl]
    refine ⟨fun hfalse => hlast ?_, fun _ => hy⟩
    rw [hleft]
    cases hrest : interlockEvents left with
    | nil => rw [hrest] at hfalse; cases hfalse
    | cons b rest => rw [hrest] at hfalse; rw [List.getLast?_cons_cons]; exact hfalse
  · rw [if_neg hd, if_neg hd]
    exact ⟨hlast, hout⟩

/-- R70: with the interlock open, an opened event follows each closed event on its way. -/
theorem InterlockLaw.opened_follows (h : InterlockLaw s) (hopen : s.scanner.interlockClosed = false)
    (hleft : interlockEvents (s.link c) = false :: interlockEvents left) :
    (interlockEvents left).getLast? ≠ some false ∧ true ∈ interlockEvents left := by
  obtain ⟨hlast, -⟩ := h hopen c
  rw [hleft] at hlast
  cases hrest : interlockEvents left with
  | nil => rw [hrest] at hlast; exact absurd rfl hlast
  | cons b rest =>
    rw [hrest, List.getLast?_cons_cons] at hlast
    refine ⟨hlast, ?_⟩
    have hmem := List.getLast_mem (l := b :: rest) nofun
    rw [List.getLast?_eq_some_getLast (l := b :: rest) nofun] at hlast
    cases hb : (b :: rest).getLast nofun with
    | true => rw [hb] at hmem; exact hmem
    | false => exact absurd (congrArg some hb) hlast

theorem interlockLaw_takeClosed (h : InterlockLaw s)
    (hleft : interlockEvents (s.link c) = false :: interlockEvents left) :
    InterlockLaw (takeClosed c after (s.setLink c left)) := by
  have hkept : (takeClosed c after (s.setLink c left)).scanner = s.scanner
      ∧ (takeClosed c after (s.setLink c left)).links = put s.links c left
      ∧ ∀ d, d ≠ c → (takeClosed c after (s.setLink c left)).chan d = s.chan d := by
    by_cases hst : (s.chan c).state = .interlocked
    · obtain ⟨hframe, hothers, -⟩ := verdict_frame c false after (s.setLink c left)
      rw [takeClosed_of (s := s.setLink c left) after hst]
      exact ⟨by rw [hframe]; rfl, by rw [hframe]; rfl, fun d hd => (hothers d hd).1⟩
    · rw [takeClosed_of_not (s := s.setLink c left) after hst]
      exact ⟨rfl, rfl, fun _ _ => rfl⟩
  obtain ⟨hscanner, hlinks, hothers⟩ := hkept
  intro hopen d
  have hopen : s.scanner.interlockClosed = false := hscanner ▸ hopen
  rw [State.link, hlinks, look_put]
  by_cases hd : d = c
  · obtain ⟨hlast, htrue⟩ := h.opened_follows hopen hleft
    rw [if_pos hd]
    exact ⟨hlast, fun hnone => absurd htrue hnone⟩
  · rw [if_neg hd, hothers d hd]
    exact h hopen d

/-! ## The Input Scanner -/

theorem interlockEvents_append {l l' : ChannelLinks} {more : List ScannerDelivery}
    (h : l'.fromScanner = l.fromScanner ++ more)
    (hmore : ∀ x ∈ more, x.event ≠ .opened ∧ x.event ≠ .closed) : interlockEvents l' = interlockEvents l := by
  unfold interlockEvents
  rw [h, List.filterMap_append]
  have hnone : more.filterMap (fun d => match d.event with
      | .opened => some true
      | .closed => some false
      | .strike _ | .arcCleared _ => none) = [] := List.filterMap_eq_nil_iff.mpr fun x hx => by
    obtain ⟨hopened, hclosed⟩ := hmore x hx
    split
    · exact absurd ‹_› hopened
    · exact absurd ‹_› hclosed
    · rfl
    · rfl
  exact (congrArg _ hnone).trans (List.append_nil _)

/-- R6 to R8: an arc line's events are no interlock events. -/
theorem interlockLaw_deliverArmed (h : InterlockLaw s) (l : ArcLine) {e : ScannerEvent}
    (he : e ≠ .opened ∧ e ≠ .closed) (asserted : Bool) : InterlockLaw
      (forEach (armedScope s.evaluator.settings l) (fun c => deliverScanner c e) (setArc l asserted s)) := by
  obtain ⟨hframe, hscanner, hlink⟩ := deliverArmed_spec l e asserted s
  refine h.keep (by rw [hscanner]) (fun d => interlockEvents_append (more := _) (by rw [hlink d]) fun x hx => ?_)
    (fun d hd => ?_)
  · split at hx
    · rw [List.mem_singleton.mp hx]; exact he
    · cases hx
  · rw [hframe]; exact hd

/-- R69: an opening is the last event on every link. -/
theorem interlockLaw_changeInterlock (closed : Bool) (s : State) : InterlockLaw (changeInterlock closed s) := by
  obtain ⟨-, hscanner, hlink, -⟩ := changeInterlock_spec closed s
  intro hopen d
  rw [hscanner] at hopen
  obtain rfl : closed = false := hopen
  have hevents : interlockEvents ((changeInterlock false s).link d) = interlockEvents (s.link d) ++ [true] := by
    rw [hlink d, interlockEvents, List.filterMap_append]
    rfl
  rw [hevents]
  exact ⟨by simp, fun hnone => absurd (by simp) hnone⟩

/-- R9: the events of the switch are no interlock events. -/
theorem interlockLaw_endLoad (h : InterlockLaw s) (l : Load) (h96 : 96 ≤ l.drafts.length) (order : List ArcLine) :
    InterlockLaw (endLoad l order s).1 := by
  have hended : InterlockLaw (s.setEvaluator { s.evaluator with load := none }) := h
  rcases endLoad_cases l h96 order s with hsame | ⟨d, settings, -, -, hswitched⟩
  · rw [hsame]; exact hended
  · rw [hswitched]
    obtain ⟨hframe, -, -, -, hlink⟩ := switchTables_switched d settings order
      (s.setEvaluator { s.evaluator with load := none })
    refine hended.keep (by rw [hframe]) (fun c => interlockEvents_append (more := _) (by rw [hlink c]) fun x hx => ?_)
      (fun c hc => by rw [hframe]; exact hc)
    obtain ⟨e, he, rfl⟩ := List.mem_map.mp hx
    obtain ⟨line, -, hline⟩ := List.mem_flatMap.mp he
    rcases mem_lineEvents hline with rfl | rfl <;> exact ⟨nofun, nofun⟩

/-! ## Commands -/

/-- The law of the interlock, with the laws of the channels that it rests on. -/
def InterlockLaws (s : State) : Prop := ChannelLaws s ∧ InterlockLaw s

theorem reads_interlockLaws : Reads InterlockLaws [.interlock, .fromScanner, .chans, .strikes, .levels, .arbiter] :=
  fun s t hsame h => ⟨reads_channelLaws s t (fun p hp => hsame p (by simp at hp ⊢; tauto)) h.1,
    reads_interlockLaw s t (fun p hp => hsame p (by simp at hp ⊢; tauto)) h.2⟩

theorem exec_leads_interlockLaw (cmd : Instr) (hvisit : cmd ≠ .slotVisit) (hlaws : ChannelLaws s) (h : InterlockLaw s) :
    Leads InterlockLaw (exec cmd s) := by
  cases cmd with
  | powerOnReset _ _ | controllerReset _ _ | backplaneResetRelease _ | supplyLoss =>
    exact leads_of_isReset rfl (fun _ => interlockLaw_of_reset rfl rfl) (fun _ _ => interlockLaw_of_reset rfl rfl)
      (interlockLaw_of_reset rfl rfl) h
  | slotVisit => exact absurd rfl hvisit
  | loadEnd order =>
    show Leads InterlockLaw (execLoadEnd order s)
    unfold execLoadEnd
    split
    · exact leads_next.mpr h
    · next l _ =>
      exact leads_next.mpr ((interlockLaw_endLoad h _ (length_readTo_all l s.mem) order).same (ps := [.mem, .handler])
        (by simp) (by simp))
  | loadProfile =>
    exact leads_next.mpr (reads_interlockLaw.keep_visitFor (by simp) _
      (fun _ _ hu => loadProfile_keeps hu fun _ _ _ _ => interlockLaw_installProfile hu) h)
  | channelOn =>
    refine leads_next.mpr (reads_interlockLaw.keep_visitFor (by simp) _ (fun _ _ hu => channelOn_keeps hu fun c target hfree => ?_) h)
    obtain ⟨hprofile, -, hclosed⟩ := channelOnRefusal_eq_none hfree
    obtain ⟨p, hp⟩ := Option.ne_none_iff_exists'.mp hprofile
    rw [takeOn_eq target hp]
    exact interlockLaw_of_closed hclosed
  | channelOff =>
    exact leads_next.mpr (reads_interlockLaw.keep_visitFor (by simp) _
      (fun _ _ hu => channelOff_keeps hu fun _ _ _ => interlockLaw_takeOff hu) h)
  | confirmRestrike =>
    have hkept := reads_interlockLaws.keep_visitFor (by simp) .confirmRestrike
      (fun a _ hu => confirmRestrike_keeps (a := a) hu fun _ hpending accept =>
        ⟨channelLaws_answer hu.1 hpending accept, interlockLaw_answer hu.1 hu.2 hpending accept⟩) ⟨hlaws, h⟩
    exact leads_next.mpr hkept.2
  | releaseLockout =>
    exact leads_next.mpr (reads_interlockLaw.keep_visitFor (by simp) _
      (fun _ _ hu => releaseLockout_keeps hu fun _ _ => interlockLaw_release hu) h)
  | arcLineAssertion l spell =>
    exact leads_ite_next (fun _ => interlockLaw_deliverArmed h l (e := .strike l) ⟨nofun, nofun⟩ true) h
  | arcLineDeassertion l spell =>
    exact leads_ite_next (fun _ => interlockLaw_deliverArmed h l (e := .arcCleared l) ⟨nofun, nofun⟩ false) h
  | interlockLoopOpening spell =>
    exact .ite (fun _ => leads_next.mpr h) fun _ => .ite
      (fun _ => leads_ite_next (fun _ => interlockLaw_changeInterlock false s) h)
      (fun _ => leads_next.mpr (h.keep rfl (fun _ => rfl) (fun _ => id)))
  | closureTimerExpiry =>
    show Leads InterlockLaw (execClosureTimerExpiry s)
    unfold execClosureTimerExpiry
    split
    · exact leads_next.mpr h
    · exact leads_ite_next (fun _ => interlockLaw_changeInterlock true s) h
  | grantTaken c =>
    exact leads_grantTaken h (fun _ => (interlockLaw_takeGrant h).1) (fun _ => (interlockLaw_takeGrant h).2)
      (fun _ => h.same (ps := [.arbiter]) (by simp) (by simp))
  | rampCompletion c =>
    have hlink : ∀ n, InterlockLaw (s.setLink c { s.link c with completions := n }) := fun _ => h.setLink rfl
    exact leads_rampCompletion h hlink fun n hst => (interlockLaw_fromRamping (hlink n) hst).1
  | preemption c =>
    have hlink : ∀ n, InterlockLaw (s.setLink c { s.link c with preemptions := n }) := fun _ => h.setLink rfl
    exact leads_preemption h hlink fun n _ hst _ _ => (interlockLaw_fromRamping (hlink n) hst).2
  | strike c link =>
    exact leads_strike h fun cause _ left hleft => interlockLaw_takeStrike (hlaws.setLink left) (h.setLink hleft) cause
  | lockoutAction c =>
    exact leads_lockoutAction h fun e capture _ _ hleft => interlockLaw_takeLockout (h.setLink hleft) e capture
  | conditionClearedEvent c => exact leads_conditionClearedEvent h fun _ _ hleft => interlockLaw_askAgain (h.setLink hleft)
  | arcCleared c => exact leads_arcCleared h fun _ _ hleft => interlockLaw_askAgain (h.setLink hleft)
  | interlockOpenedEvent c => exact leads_interlockOpenedEvent h fun _ _ hleft => interlockLaw_takeOpened h hleft
  | interlockClosedEvent c => exact leads_interlockClosedEvent h fun _ _ hleft => interlockLaw_takeClosed h hleft
  | holdoffExpiry c =>
    exact leads_holdoffExpiry h fun _ _ hst => ⟨h.setChan c (x := { s.chan c with holdoff := none, extended := true })
      rfl rfl rfl id, interlockLaw_endHoldoff h hst⟩
  | confirmationExpiry c => exact leads_confirmationExpiry h fun _ => interlockLaw_expireConfirmation h
  | _ => exact fun t ht => reads_interlockLaw.keep_exec ht (by simp [footprint]) h

/-- Settles O57: a channel's state moves only when its interlock events allow it, by the laws of the channels. -/
theorem stepKeepsInterlockLaw : Obligations.StepKeepsInterlockLaw := fun s t hlaws h ht =>
  (reads_interlockLaws.keep_step (by simp) (fun cmd s t hcmd hs ht =>
    ⟨exec_leads_channelLaws cmd hcmd hs.1 t ht, exec_leads_interlockLaw cmd hcmd hs.1 hs.2 t ht⟩) s t ⟨hlaws, h⟩ ht).2

end Sys2Proof.Machine
